-- ==== Sys2Proof/Word.lean ====
section
/-! DEFINITION. The word types of the block (spec/00_scope.md R10: every value of the block is unsigned). -/

namespace Sys2Proof

/-- One byte: a wire byte, a payload byte, a frame type, a running sum, a command character. -/
abbrev Byte := BitVec 8

/-- A 16-bit register: a buffer length, a wire length, a payload counter. -/
abbrev Half := BitVec 16

/-- A 9-bit flag set (spec/00_scope.md R13). -/
abbrev FlagSet := BitVec 9

/-- The 32-bit host request word (spec/30_encoding.md R104). -/
abbrev ReqWord := BitVec 32

end Sys2Proof
end

