-- ==== Sys2Proof/Config.lean ====
section
/-! DEFINITION. The constants the spec fixes, the parameters of an instance, and the free values
(spec/00_scope.md R8, R9; spec/93_implementation_defined.md). -/

namespace Sys2Proof.Config

/-- CAP, the payload capacity (R8: 64 bytes in the reference system). -/
def cap : Nat := 64

/-- DELIM (R91). -/
def delim : Byte := 0x7E#8

/-- FILL, the byte sent when there is nothing to send (R98). -/
def fill : Byte := 0x00#8

/-- CK_BASE (R96). -/
def ckBase : Byte := 0xFF#8

/-- FT_NONE, the "no frame" sentinel (R8; the value is the spec's decision D3, log 25). -/
def ftNone : Byte := 0x00#8

/-- FT_AT_COMMAND (R100, source §8). -/
def ftAtCommand : Byte := 0x08#8

/-- FT_AT_RESPONSE. PRESUMED (spec G1, log 6): unsafe if the device uses another code. -/
def ftAtResponse : Byte := 0x88#8

/-- FT_MODEM_STATUS. PRESUMED (spec G1, log 6): unsafe if the device uses another code. -/
def ftModemStatus : Byte := 0x8A#8

/-- FT_TX_REQUEST. PRESUMED (spec G1, log 6): unsafe if the device uses another code. -/
def ftTxRequest : Byte := 0x10#8

/-- FT_RX_INDICATION. PRESUMED (spec G1, log 6): unsafe if the device uses another code. -/
def ftRxIndication : Byte := 0x90#8

/-- STATUS_OK (R8, source §8). -/
def statusOk : Byte := 0x00#8

/-- RESP_STATUS_OFFSET (R67). PRESUMED (spec G2, log 6): unsafe if the status lies elsewhere. -/
def respStatusOffset : Nat := 3

/-- MODEM_STATUS_OFFSET (R68). PRESUMED (spec G3, log 6): unsafe if the status lies elsewhere. -/
def modemStatusOffset : Nat := 0

/-- MS_HW_RESET (R68). PRESUMED (spec G3, log 6): unsafe if the device uses another code. -/
def msHwReset : Byte := 0x00#8

/-- One entry of CONFIG_SEQ: two command characters and the parameter bytes (R8, R265). -/
structure Entry where
  c0 : Byte
  c1 : Byte
  params : List Byte
  deriving DecidableEq, Repr

/-- The parameters of an instance that the spec leaves OPEN (R8). They are constants: no step
writes them. They stand in State so that a statement holds for every instance (log 5). -/
structure Params where
  retryBudget : Nat
  cmdFrameId : Byte
  configSeq : Vector Entry 3
  pollLimit : Option Nat
  tResetUs : Nat
  tSelectUs : Nat
  tByteUs : Nat
  deriving DecidableEq, Repr

/-- R9: each CONFIG_SEQ entry has at most CAP − 4 parameter bytes. -/
def Params.legal (p : Params) : Bool :=
  decide (∀ i : Fin 3, p.configSeq[i].params.length ≤ cap - 4)

/-- RETRY_BUDGET of the instance that comes out of reset: OPEN in the spec, so no value (log 5). -/
opaque retryBudget : Nat
/-- CMD_FRAME_ID of that instance: OPEN in the spec (log 5). -/
opaque cmdFrameId : Byte
/-- The command characters of CONFIG_SEQ's entries: OPEN in the spec (log 5). -/
opaque configChars : Nat → Byte × Byte
/-- The parameter bytes of CONFIG_SEQ's entries: OPEN in the spec (log 5). -/
opaque configParams : Nat → List Byte
/-- T_RESET_US: OPEN, no effect (R345, log 18). -/
opaque tResetUs : Nat
/-- T_SELECT_US: OPEN, no effect (R345, log 18). -/
opaque tSelectUs : Nat
/-- T_BYTE_US: OPEN, no effect (R345, log 18). -/
opaque tByteUs : Nat

/-- Entry `i` of the reset instance's CONFIG_SEQ, within R9's bound. -/
def openEntry (i : Nat) : Entry :=
  { c0 := (configChars i).1, c1 := (configChars i).2, params := (configParams i).take (cap - 4) }

/-- The instance that comes out of reset: every OPEN parameter unconstrained, POLL_LIMIT at the
spec's default `none` (R8, D21). -/
def openParams : Params where
  retryBudget := retryBudget
  cmdFrameId := cmdFrameId
  configSeq := #v[openEntry 0, openEntry 1, openEntry 2]
  pollLimit := none
  tResetUs := tResetUs
  tSelectUs := tSelectUs
  tByteUs := tByteUs

/-- A free byte: nothing constrains it (log 2). The first argument names the occasion (a counter
the step reads and advances), the second the place. -/
opaque freeByte : Nat → Nat → Byte

/-- A free line level: nothing constrains it (log 1, log 2). -/
opaque freeLevel : Nat → Bool

end Sys2Proof.Config
end

