-- ==== Sys2Proof/Syntax.lean ====
section
/-! DEFINITION. The instructions: one constructor per row of spec/opcode_table.json. A row is a host
operation, a reserved operation code, a frame on the wire, a state-step of one of the two machines, or
a flag (spec/00_scope.md R6; spec/30_encoding.md). -/

namespace Sys2Proof

/-- The two logical power states (spec/30_encoding.md R111). -/
inductive Power where
  | sleep
  | wake
  deriving DecidableEq, Repr

/-- The nine result flags (spec/30_encoding.md R110). -/
inductive Flag where
  | sizeError
  | txSuccess
  | rxSuccess
  | noData
  | rxTooLong
  | badChecksum
  | wrongFrame
  | cmdRejected
  | pollTimeout
  deriving DecidableEq, Repr

/-- TXS, the seven transmit states (spec/10_state.md R27). -/
inductive TxState where
  | idle
  | header
  | lenHi
  | lenLo
  | ftype
  | data
  | cksum
  deriving DecidableEq, Repr

/-- RXS, the six receive states (spec/10_state.md R28). -/
inductive RxState where
  | idle
  | lenHi
  | lenLo
  | ftype
  | data
  | cksum
  deriving DecidableEq, Repr

/-- One constructor per row of the opcode table. A frame carries its wire length `w`, its payload
bytes and its checksum byte as they stand on the wire; FRAME_GENERIC carries its type byte too. -/
inductive Instr where
  | xfer
  | sendCommand (c0 c1 plen : Byte)
  | receiveResponse
  | doCommand (c0 c1 plen : Byte)
  | setPower (st : Power)
  | waitPower (st : Power)
  | waitAttn
  | resetPulse
  | configure
  | reserved0
  | reservedA
  | reservedB
  | reservedC
  | reservedD
  | reservedE
  | reservedF
  | frameGeneric (w : Half) (t : Byte) (payload : List Byte) (ck : Byte)
  | frameAtCommand (w : Half) (payload : List Byte) (ck : Byte)
  | frameAtResponse (w : Half) (payload : List Byte) (ck : Byte)
  | frameModemStatus (w : Half) (payload : List Byte) (ck : Byte)
  | frameTxRequest (w : Half) (payload : List Byte) (ck : Byte)
  | frameRxIndication (w : Half) (payload : List Byte) (ck : Byte)
  | stepTxIdle
  | stepTxHeader
  | stepTxLenHi
  | stepTxLenLo
  | stepTxType
  | stepTxData
  | stepTxCksum
  | stepRxIdle
  | stepRxLenHi
  | stepRxLenLo
  | stepRxType
  | stepRxData
  | stepRxCksum
  | flagSizeError
  | flagTxSuccess
  | flagRxSuccess
  | flagNoData
  | flagRxTooLong
  | flagBadChecksum
  | flagWrongFrame
  | flagCmdRejected
  | flagPollTimeout
  deriving DecidableEq, Repr

end Sys2Proof
end

