-- ==== Sys2Proof/WellFormed.lean ====
section
/-! DEFINITION. Which instructions are well formed: a frame's payload has the length its two length
bytes announce, and FRAME_GENERIC stands only for a type that has no row of its own. Every other
instruction is well formed with any operands (spec/30_encoding.md R93, R99, R102, R104). -/

namespace Sys2Proof

/-- The payload bytes that follow the type byte of a frame of wire length `w`: W − 1, and none for
W = 0 (R102; natural subtraction). -/
def payloadFits (w : Half) (payload : List Byte) : Bool :=
  payload.length == w.toNat - 1

/-- The five type codes that have a row of their own (R100). -/
def namedTypes : List Byte :=
  [Config.ftAtCommand, Config.ftAtResponse, Config.ftModemStatus, Config.ftTxRequest,
    Config.ftRxIndication]

/-- Well-formedness of an instruction. -/
def Instr.wf : Instr → Bool
  | .frameGeneric w t payload _ => payloadFits w payload && !namedTypes.contains t
  | .frameAtCommand w payload _ => payloadFits w payload
  | .frameAtResponse w payload _ => payloadFits w payload
  | .frameModemStatus w payload _ => payloadFits w payload
  | .frameTxRequest w payload _ => payloadFits w payload
  | .frameRxIndication w payload _ => payloadFits w payload
  | .xfer | .sendCommand .. | .receiveResponse | .doCommand .. | .setPower _ | .waitPower _
  | .waitAttn | .resetPulse | .configure
  | .reserved0 | .reservedA | .reservedB | .reservedC | .reservedD | .reservedE | .reservedF
  | .stepTxIdle | .stepTxHeader | .stepTxLenHi | .stepTxLenLo | .stepTxType | .stepTxData
  | .stepTxCksum
  | .stepRxIdle | .stepRxLenHi | .stepRxLenLo | .stepRxType | .stepRxData | .stepRxCksum
  | .flagSizeError | .flagTxSuccess | .flagRxSuccess | .flagNoData | .flagRxTooLong
  | .flagBadChecksum | .flagWrongFrame | .flagCmdRejected | .flagPollTimeout => true

end Sys2Proof
end

