-- ==== Sys2Proof/Decode.lean ====
section
/-! DEFINITION. Decoding and encoding in the five encoding spaces of spec/30_encoding.md: host request
words (R104 to R106), frames on the wire (R90 to R103), the codes of TXS and RXS (spec/10_state.md R27,
R28) and one-flag codes (R110). Decoding is total and rejects by name. -/

namespace Sys2Proof

/-! ## Bytes, halves, checksums -/

/-- `h[15:8]`. -/
def hiByte (h : Half) : Byte := h.extractLsb' 8 8

/-- `h[7:0]`. -/
def loByte (h : Half) : Byte := h.extractLsb' 0 8

/-- `hi ++ lo`, the high byte in the more significant place. -/
def joinBytes (hi lo : Byte) : Half := hi ++ lo

/-- The number of data bytes that follow the type byte of a frame of wire length `w` (R102, R153). -/
def dataCount (w : Half) : Nat := w.toNat - 1

/-- The 8-bit running sum of the type byte and the data bytes (R96). -/
def byteSum (t : Byte) (payload : List Byte) : Byte := payload.foldl (· + ·) t

/-- The checksum byte of a running sum: `0xFF − sum` (R96). -/
def checksum (sum : Byte) : Byte := Config.ckBase - sum

/-- The bytes of a frame on the wire, first to last (R90). -/
def frameBytes (w : Half) (t : Byte) (payload : List Byte) (ck : Byte) : List Byte :=
  Config.delim :: hiByte w :: loByte w :: t :: (payload ++ [ck])

/-! ## Codes -/

/-- Why a code is no instruction. -/
inductive Reject where
  /-- A frame starts with the delimiter (R91). -/
  | noDelimiter
  /-- The bytes end before the frame does (R99). -/
  | truncated
  /-- Bytes follow the frame (R99). -/
  | trailing
  /-- TXS has seven codes (R27). -/
  | noSuchTxState
  /-- RXS has six codes (R28). -/
  | noSuchRxState
  /-- A flag's code has exactly one bit (R110, R281). -/
  | notOneFlag
  deriving DecidableEq, Repr

/-- A code in one of the five encoding spaces. -/
inductive Code where
  | request (w : ReqWord)
  | wire (bytes : List Byte)
  | txState (c : BitVec 3)
  | rxState (c : BitVec 3)
  | flag (c : FlagSet)
  deriving DecidableEq, Repr

/-! ## The host request word (R104 to R106) -/

/-- The `st` operand of a bit: 1 = WAKE, 0 = SLEEP (R104, R111). -/
def powerOfBit (b : Bool) : Power := if b then .wake else .sleep

/-- The bit of an `st` operand (R111). -/
def powerBit : Power → BitVec 1
  | .sleep => 0#1
  | .wake => 1#1

/-- `plen`, bits 15:8. -/
def reqPlen (w : ReqWord) : Byte := w.extractLsb' 8 8

/-- `c1`, bits 23:16. -/
def reqC1 (w : ReqWord) : Byte := w.extractLsb' 16 8

/-- `c0`, bits 31:24. -/
def reqC0 (w : ReqWord) : Byte := w.extractLsb' 24 8

/-- `st`, bit 4. -/
def reqSt (w : ReqWord) : Power := powerOfBit (w.getLsbD 4)

/-- The operation a request word names by its bits 3:0 (R105, R106); fields the operation does not
use are ignored (R104). -/
def decodeRequest (w : ReqWord) : Instr :=
  match (w.extractLsb' 0 4).toNat with
  | 0x1 => .xfer
  | 0x2 => .sendCommand (reqC0 w) (reqC1 w) (reqPlen w)
  | 0x3 => .receiveResponse
  | 0x4 => .doCommand (reqC0 w) (reqC1 w) (reqPlen w)
  | 0x5 => .setPower (reqSt w)
  | 0x6 => .waitPower (reqSt w)
  | 0x7 => .waitAttn
  | 0x8 => .resetPulse
  | 0x9 => .configure
  | 0x0 => .reserved0
  | 0xA => .reservedA
  | 0xB => .reservedB
  | 0xC => .reservedC
  | 0xD => .reservedD
  | 0xE => .reservedE
  | _ => .reservedF

/-- A request word from its fields, the reserved bits 7:5 written as 0 (R104). -/
def reqWord (c0 c1 plen : Byte) (st : BitVec 1) (op : BitVec 4) : ReqWord :=
  c0 ++ c1 ++ plen ++ 0#3 ++ st ++ op

/-- A request word of an operation without operands. -/
def bareReq (op : BitVec 4) : ReqWord := reqWord 0 0 0 0 op

/-! ## Frames on the wire (R90 to R103) -/

/-- The frame instruction of a type byte: the row of that type, else FRAME_GENERIC (R100). -/
def mkFrame (w : Half) (t : Byte) (payload : List Byte) (ck : Byte) : Instr :=
  if t = Config.ftAtCommand then .frameAtCommand w payload ck
  else if t = Config.ftAtResponse then .frameAtResponse w payload ck
  else if t = Config.ftModemStatus then .frameModemStatus w payload ck
  else if t = Config.ftTxRequest then .frameTxRequest w payload ck
  else if t = Config.ftRxIndication then .frameRxIndication w payload ck
  else .frameGeneric w t payload ck

/-- What follows a frame's type byte: `n` data bytes and the checksum byte (R99). -/
def takeBody (n : Nat) (bytes : List Byte) : Option (List Byte × Byte × List Byte) :=
  match bytes.drop n with
  | [] => none
  | ck :: rest => some (bytes.take n, ck, rest)

/-- One frame from the front of a byte stream, with the bytes that follow it (R99). -/
def decodeFrame : List Byte → Except Reject (Instr × List Byte)
  | d :: wh :: wl :: t :: body =>
    if d = Config.delim then
      match takeBody (dataCount (joinBytes wh wl)) body with
      | none => .error .truncated
      | some (payload, ck, rest) => .ok (mkFrame (joinBytes wh wl) t payload ck, rest)
    else .error .noDelimiter
  | [] => .error .truncated
  | d :: _ => if d = Config.delim then .error .truncated else .error .noDelimiter

/-! ## State codes and flag codes -/

/-- TXS by its code (R27). -/
def txStateOfCode (c : BitVec 3) : Option TxState :=
  match c.toNat with
  | 0 => some .idle
  | 1 => some .header
  | 2 => some .lenHi
  | 3 => some .lenLo
  | 4 => some .ftype
  | 5 => some .data
  | 6 => some .cksum
  | _ => none

/-- The code of TXS (R27). -/
def txStateCode : TxState → BitVec 3
  | .idle => 0
  | .header => 1
  | .lenHi => 2
  | .lenLo => 3
  | .ftype => 4
  | .data => 5
  | .cksum => 6

/-- The state-step that fires in a transmit state. -/
def txInstr : TxState → Instr
  | .idle => .stepTxIdle
  | .header => .stepTxHeader
  | .lenHi => .stepTxLenHi
  | .lenLo => .stepTxLenLo
  | .ftype => .stepTxType
  | .data => .stepTxData
  | .cksum => .stepTxCksum

/-- RXS by its code (R28). -/
def rxStateOfCode (c : BitVec 3) : Option RxState :=
  match c.toNat with
  | 0 => some .idle
  | 1 => some .lenHi
  | 2 => some .lenLo
  | 3 => some .ftype
  | 4 => some .data
  | 5 => some .cksum
  | _ => none

/-- The code of RXS (R28). -/
def rxStateCode : RxState → BitVec 3
  | .idle => 0
  | .lenHi => 1
  | .lenLo => 2
  | .ftype => 3
  | .data => 4
  | .cksum => 5

/-- The state-step that fires in a receive state. -/
def rxInstr : RxState → Instr
  | .idle => .stepRxIdle
  | .lenHi => .stepRxLenHi
  | .lenLo => .stepRxLenLo
  | .ftype => .stepRxType
  | .data => .stepRxData
  | .cksum => .stepRxCksum

/-- The code of a flag: its one bit of the flag set (R110, R281). -/
def flagCode : Flag → FlagSet
  | .sizeError => 0x001
  | .txSuccess => 0x002
  | .rxSuccess => 0x004
  | .noData => 0x008
  | .rxTooLong => 0x010
  | .badChecksum => 0x020
  | .wrongFrame => 0x040
  | .cmdRejected => 0x080
  | .pollTimeout => 0x100

/-- The flag whose code is `c` (R281). -/
def flagOfCode (c : FlagSet) : Option Flag :=
  match c.toNat with
  | 0x001 => some .sizeError
  | 0x002 => some .txSuccess
  | 0x004 => some .rxSuccess
  | 0x008 => some .noData
  | 0x010 => some .rxTooLong
  | 0x020 => some .badChecksum
  | 0x040 => some .wrongFrame
  | 0x080 => some .cmdRejected
  | 0x100 => some .pollTimeout
  | _ => none

/-- The instruction that raises a flag. -/
def flagInstr : Flag → Instr
  | .sizeError => .flagSizeError
  | .txSuccess => .flagTxSuccess
  | .rxSuccess => .flagRxSuccess
  | .noData => .flagNoData
  | .rxTooLong => .flagRxTooLong
  | .badChecksum => .flagBadChecksum
  | .wrongFrame => .flagWrongFrame
  | .cmdRejected => .flagCmdRejected
  | .pollTimeout => .flagPollTimeout

/-! ## Decode and encode -/

/-- The instruction a code stands for. -/
def decode : Code → Except Reject Instr
  | .request w => .ok (decodeRequest w)
  | .wire bytes =>
    match decodeFrame bytes with
    | .ok (i, []) => .ok i
    | .ok (_, _ :: _) => .error .trailing
    | .error r => .error r
  | .txState c =>
    match txStateOfCode c with
    | some st => .ok (txInstr st)
    | none => .error .noSuchTxState
  | .rxState c =>
    match rxStateOfCode c with
    | some st => .ok (rxInstr st)
    | none => .error .noSuchRxState
  | .flag c =>
    match flagOfCode c with
    | some f => .ok (flagInstr f)
    | none => .error .notOneFlag

/-- The code of an instruction. -/
def encode : Instr → Code
  | .xfer => .request (bareReq 0x1)
  | .sendCommand c0 c1 plen => .request (reqWord c0 c1 plen 0 0x2)
  | .receiveResponse => .request (bareReq 0x3)
  | .doCommand c0 c1 plen => .request (reqWord c0 c1 plen 0 0x4)
  | .setPower st => .request (reqWord 0 0 0 (powerBit st) 0x5)
  | .waitPower st => .request (reqWord 0 0 0 (powerBit st) 0x6)
  | .waitAttn => .request (bareReq 0x7)
  | .resetPulse => .request (bareReq 0x8)
  | .configure => .request (bareReq 0x9)
  | .reserved0 => .request (bareReq 0x0)
  | .reservedA => .request (bareReq 0xA)
  | .reservedB => .request (bareReq 0xB)
  | .reservedC => .request (bareReq 0xC)
  | .reservedD => .request (bareReq 0xD)
  | .reservedE => .request (bareReq 0xE)
  | .reservedF => .request (bareReq 0xF)
  | .frameGeneric w t payload ck => .wire (frameBytes w t payload ck)
  | .frameAtCommand w payload ck => .wire (frameBytes w Config.ftAtCommand payload ck)
  | .frameAtResponse w payload ck => .wire (frameBytes w Config.ftAtResponse payload ck)
  | .frameModemStatus w payload ck => .wire (frameBytes w Config.ftModemStatus payload ck)
  | .frameTxRequest w payload ck => .wire (frameBytes w Config.ftTxRequest payload ck)
  | .frameRxIndication w payload ck => .wire (frameBytes w Config.ftRxIndication payload ck)
  | .stepTxIdle => .txState (txStateCode .idle)
  | .stepTxHeader => .txState (txStateCode .header)
  | .stepTxLenHi => .txState (txStateCode .lenHi)
  | .stepTxLenLo => .txState (txStateCode .lenLo)
  | .stepTxType => .txState (txStateCode .ftype)
  | .stepTxData => .txState (txStateCode .data)
  | .stepTxCksum => .txState (txStateCode .cksum)
  | .stepRxIdle => .rxState (rxStateCode .idle)
  | .stepRxLenHi => .rxState (rxStateCode .lenHi)
  | .stepRxLenLo => .rxState (rxStateCode .lenLo)
  | .stepRxType => .rxState (rxStateCode .ftype)
  | .stepRxData => .rxState (rxStateCode .data)
  | .stepRxCksum => .rxState (rxStateCode .cksum)
  | .flagSizeError => .flag (flagCode .sizeError)
  | .flagTxSuccess => .flag (flagCode .txSuccess)
  | .flagRxSuccess => .flag (flagCode .rxSuccess)
  | .flagNoData => .flag (flagCode .noData)
  | .flagRxTooLong => .flag (flagCode .rxTooLong)
  | .flagBadChecksum => .flag (flagCode .badChecksum)
  | .flagWrongFrame => .flag (flagCode .wrongFrame)
  | .flagCmdRejected => .flag (flagCode .cmdRejected)
  | .flagPollTimeout => .flag (flagCode .pollTimeout)

/-! ## The opcode table's numbering -/

/-- The code of a table word (log 11). Up to 8 bits: a code of TXS. Up to 16 bits: a flag. Else 32
bits: a frame header when its top byte is the delimiter (the table writes a frame's four header bytes
with the first in the top place; data and checksum bytes are 0), a host request word otherwise. -/
def tableCode (nbits w : Nat) : Code :=
  if nbits ≤ 8 then .txState (BitVec.ofNat 3 w)
  else if nbits ≤ 16 then .flag (BitVec.ofNat 9 w)
  else if w / 2 ^ 24 % 256 = 0x7E then
    .wire (BitVec.ofNat 8 (w / 2 ^ 24) :: BitVec.ofNat 8 (w / 2 ^ 16) ::
      BitVec.ofNat 8 (w / 2 ^ 8) :: BitVec.ofNat 8 w ::
      List.replicate (dataCount (BitVec.ofNat 16 (w / 2 ^ 8)) + 1) 0)
  else .request (BitVec.ofNat 32 w)

/-- The instruction the decoder reads from a table word. -/
def decodeTableWord (nbits w : Nat) : Option Instr :=
  match decode (tableCode nbits w) with
  | .ok i => some i
  | .error _ => none

end Sys2Proof
end

