-- ==== Sys2Proof/Machine/State.lean ====
section
/-! DEFINITION. The state of the block, everything spec/10_state.md R20 lists, with what the host and the
module will do as plain data beside it; the reasons a step can stop; the state right after reset. -/

namespace Sys2Proof.Machine

open Sys2Proof

/-! ## Payload memory and buffers -/

/-- A payload array (spec/20_memory.md R60): pairs of an index and the byte it holds, indices strictly
rising. An index that is not listed holds an unspecified byte (R45, R158): it has no value here, and
a read of it gives a free value (log 2). -/
abbrev Memory := List Host.Cell

/-- A Frame Buffer (R22, R23). `fill` names the occasion on which its unlisted bytes became
unspecified, so that reading one twice gives one value (log 2). -/
structure FrameBuffer where
  length : Half
  frameType : Byte
  payload : Memory
  fill : Nat
  deriving DecidableEq, Repr

/-- The staging buffer RXA (R29). What it holds after a frame has ended, which the spec leaves
unspecified, is what that frame left (DESIGN CHOICE, log 29). -/
structure Staging where
  frameType : Byte
  payload : Memory
  fill : Nat
  deriving DecidableEq, Repr

/-! ## Registers, in the groups of R20 -/

/-- Transmit FSM registers (R27). -/
structure TxRegs where
  txs : TxState
  txidx : Half
  txsum : Byte
  deriving DecidableEq, Repr

/-- Receive FSM registers (R28). -/
structure RxRegs where
  rxs : RxState
  rxw : Half
  rxn : Half
  rxidx : Half
  rxsum : Byte
  rxlong : Bool
  deriving DecidableEq, Repr

/-- Transaction registers (R30) and the transaction's flag accumulator (R31). -/
structure XferRegs where
  retry : Nat
  rxseen : Bool
  rxonly : Bool
  xresult : FlagSet
  deriving DecidableEq, Repr

/-- The output lines (R33 to R35) and the two byte ports of an exchange (spec/60_exceptions.md R300,
R301). XCH_IN holds the inbound byte of the exchange step in progress, from `exchange` to the receive
state-step that samples it, and nothing outside it: the result of an exchange is never latched beyond
the step that samples it (R21). XCH_OUT keeps its byte after that step, where the spec gives it no value:
DESIGN CHOICE, log 8, unsafe. -/
structure Lines where
  select : Bool
  pwrReq : Power
  resetOut : Bool
  xchOut : Byte
  xchIn : Option Byte
  deriving DecidableEq, Repr

/-- Result registers of the command layer (R32). -/
structure Results where
  result : FlagSet
  sendResult : FlagSet
  cmdStatus : Byte
  deriving DecidableEq, Repr

/-- SEQS (R36). -/
inductive SeqState where
  | idle
  | reset
  | harvest
  | command
  | done
  deriving DecidableEq, Repr

/-- Sequencer registers (R36). -/
structure SeqRegs where
  seqs : SeqState
  seqIdx : Fin 3
  seqAttempts : Half
  configured : Bool
  deriving DecidableEq, Repr

/-! ## OPS: which operation runs, its operands, its position (R37) -/

/-- Where XFER stands in its pseudocode (spec/41_transaction.md R170). `after` stands behind
`rx_step`, at the retry update, and holds `was_idle`; `byteDelay` stands at `delay(T_BYTE_US)`; `raise f`
stands at a `raise Flag(f)` line. -/
inductive XferPos where
  | start
  | selDelay
  | loop
  | exch
  | rx
  | after (wasIdle : Bool)
  | byteDelay
  | finish
  | raise (f : Flag)
  | ret
  deriving DecidableEq, Repr

/-- Where SEND_COMMAND stands (spec/42_command.md R200). -/
inductive SendPos where
  | start
  | sent
  deriving DecidableEq, Repr

/-- Where RECEIVE_RESPONSE stands (R210). -/
inductive RecvPos where
  | start
  | waited
  | received
  deriving DecidableEq, Repr

/-- Where DO_COMMAND stands (R220). -/
inductive DoPos where
  | start
  | sent
  | received
  deriving DecidableEq, Repr

/-- Where RESET_PULSE stands (spec/44_sequencer.md R250). -/
inductive PulsePos where
  | start
  | hold
  | release
  deriving DecidableEq, Repr

/-- Where CONFIGURE stands (R262). -/
inductive ConfPos where
  | start
  | attempt
  | pulsed
  | harvested
  | command
  | commanded
  deriving DecidableEq, Repr

/-- One operation in progress: its operands, its position and, for a wait, the samples taken. -/
inductive Act where
  | xfer (p : XferPos)
  | send (c0 c1 plen : Byte) (p : SendPos)
  | recv (p : RecvPos)
  | doCmd (c0 c1 plen : Byte) (p : DoPos)
  | setPower (st : Power)
  | waitPower (st : Power) (n : Nat)
  | waitAttn (n : Nat)
  | pulse (p : PulsePos)
  | configure (p : ConfPos)
  deriving DecidableEq, Repr

/-! ## The world outside the block -/

/-- One call on the environment (spec/00_scope.md R12) with its result. -/
inductive Event where
  | exchange (out inn : Byte)
  | select (v : Bool)
  | delay (us : Nat)
  | setRequestLine (st : Power)
  | readStatus (st : Power)
  | readAttn (a : Bool)
  | resetAssert
  | resetDeassert
  deriving DecidableEq, Repr

/-- The two Frame Buffers as the host sees them (R43). -/
inductive Buf where
  | tx
  | rx
  deriving DecidableEq, Repr

/-- The registers the host can read (R43). -/
inductive HostReg where
  | xresult
  | result
  | sendResult
  | cmdStatus
  | busy
  | seqAttempts
  | configured
  | select
  | pwrReq
  | resetOut
  deriving DecidableEq, Repr

/-- What the host does at its port (R43, R305, R320). `awaitIdle` is the host waiting for BUSY = 0
(R330); `pass` is the host making no access while the block makes one step, so that a list can place
any later action behind any micro-step (log 13, log 27); the other actions happen when their turn comes,
whatever BUSY is. -/
inductive HostAct where
  | request (w : ReqWord)
  | awaitIdle
  | pass
  | write (addr : Nat) (bytes : List Byte)
  | read (b : Buf) (addr n : Nat)
  | readReg (r : HostReg)
  | reset
  deriving DecidableEq, Repr

/-- How much of the inbound wire one step takes: a byte, or a whole frame where one stands at the
front (log 9). -/
inductive Grain where
  | byte
  | frame
  deriving DecidableEq, Repr

/-- The world: what the host will do, what the module will supply (both lists, next first; when one
is empty the input is a free value, log 1), how many more calls the environment answers (`none`: all
of them, log 21), what the host's latest read returned, and the events made so far, newest first
(log 19). -/
structure World where
  host : List HostAct
  inbound : List Byte
  statusIn : List Power
  attnIn : List Bool
  grain : Grain
  answers : Option Nat
  hostBytes : List Byte
  hostWord : Half
  events : List Event
  deriving DecidableEq, Repr

/-! ## The state -/

/-- The state. `draws` counts the free values taken (log 2); `params` are the instance's constants
(log 5); `ops` is OPS, the operation in progress with the operations it runs, innermost first. -/
structure State where
  txbuf : FrameBuffer
  rxbuf : FrameBuffer
  tx : TxRegs
  rx : RxRegs
  rxa : Staging
  xf : XferRegs
  line : Lines
  res : Results
  seq : SeqRegs
  busy : Bool
  ops : List Act
  params : Config.Params
  world : World
  draws : Nat
  deriving DecidableEq, Repr

/-- Why the machine stops with a fault. -/
inductive Fault where
  /-- Raised by the transmit Data step when TXIDX ≥ CAP: that payload byte does not exist
  (spec/20_memory.md R60, R76). No run reaches it. Safe. -/
  | payloadIndexOutOfRange
  /-- Raised by CONFIGURE when an entry of CONFIG_SEQ has more than CAP − 4 parameter bytes, which
  spec/00_scope.md R9 forbids. Safe. -/
  | configEntryTooLong
  deriving DecidableEq, Repr

/-- Why an instruction or a host action is not accepted. -/
inductive Refusal where
  /-- The dispatch's mark for an instruction without a meaning; no arm uses it. Safe. -/
  | notModelled (mnemonic : String)
  /-- Raised by a request with a reserved operation code (spec/30_encoding.md R106, U8). Safe. -/
  | reservedOperation
  /-- Raised by a request while BUSY = 1 (spec/70_reset_and_hazards.md R330, U7). Safe. -/
  | requestWhileBusy
  /-- Raised by a host access to a buffer or a result register while BUSY = 1 (R331, U6). Safe. -/
  | hostAccessWhileBusy
  /-- Raised by a host access to an image address at or above CAP + 3 (spec/20_memory.md R62,
  U14). Safe. -/
  | noSuchImageAddress
  /-- Raised by a state-step outside the state it fires in: the spec gives it an effect in that state
  only (spec/00_scope.md R14, log 8). Safe. -/
  | stateStepNotEnabled
  deriving DecidableEq, Repr

/-- A Frame Buffer reset to empty (R45), its payload bytes unspecified. -/
def emptyBuffer (fill : Nat) : FrameBuffer :=
  { length := 0, frameType := Config.ftNone, payload := [], fill := fill }

/-- The block's registers at reset (R45, R320). The registers R45 leaves unspecified (TXIDX, TXSUM,
RXW, RXN, RXIDX, RXSUM, RXLONG, RXA.frame_type, CMD_STATUS) and XCH_OUT are 0: DESIGN CHOICE,
log 3 and log 8, unsafe. OPS, which R45 does not list, is empty: no operation is in progress, as BUSY = 0
asks (DEDUCED, log 3). The free-value counter starts at `d`. -/
def State.resetWith (params : Config.Params) (world : World) (d : Nat) : State :=
  { txbuf := emptyBuffer d
    rxbuf := emptyBuffer (d + 1)
    tx := { txs := .idle, txidx := 0, txsum := 0 }
    rx := { rxs := .idle, rxw := 0, rxn := 0, rxidx := 0, rxsum := 0, rxlong := false }
    rxa := { frameType := 0, payload := [], fill := d + 2 }
    xf := { retry := 0, rxseen := false, rxonly := false, xresult := 0 }
    line := { select := false, pwrReq := .wake, resetOut := false, xchOut := 0, xchIn := none }
    res := { result := 0, sendResult := 0, cmdStatus := 0 }
    seq := { seqs := .idle, seqIdx := 0, seqAttempts := 0, configured := false }
    busy := false
    ops := []
    params := params
    world := world
    draws := d + 3 }

/-- A world in which nothing is scheduled and nothing has happened (log 1, log 13, log 19). -/
def World.quiet : World :=
  { host := [], inbound := [], statusIn := [], attnIn := [], grain := .byte, answers := none,
    hostBytes := [], hostWord := 0, events := [] }

/-- The machine right after reset (R45, R320, R322): idle, waiting for the host. -/
def State.reset : State := State.resetWith Config.openParams World.quiet 0

end Sys2Proof.Machine
end

