-- ==== Sys2Proof/Machine/Ops.lean ====
section
/-! DEFINITION. The named operations over payload memory, buffers, free values, events and OPS. The
block takes no trap and returns from none (spec/60_exceptions.md R280, R284, R288), so no operation
here takes an exception; its one error mechanism, `raise Flag(F)`, stands in Flags.lean. -/

namespace Sys2Proof.Machine

open Sys2Proof

/-- The outcomes of a step of this machine. -/
abbrev Out := Host.Outcome State Fault Refusal

/-- Go on with `f` after a next state; a stop stays a stop. -/
def andThen (o : Out) (f : State → Out) : Out :=
  match o with
  | .next s => f s
  | .fault r => .fault r
  | .refused r => .refused r

/-! ## Payload memory -/

/-- The byte listed at `a`, if any. -/
def memGet : Memory → Nat → Option Byte
  | [], _ => none
  | (b, v) :: r, a => if a = b then some v else memGet r a

/-- Write the byte at `a`, keeping addresses strictly rising. -/
def memPut : Memory → Nat → Byte → Memory
  | [], a, v => [(a, v)]
  | (b, w) :: r, a, v =>
    if a < b then (a, v) :: (b, w) :: r
    else if a = b then (a, v) :: r
    else (b, w) :: memPut r a v

/-- Write consecutive bytes from `a` on. -/
def memPutAll : Memory → Nat → List Byte → Memory
  | m, _, [] => m
  | m, a, v :: vs => memPutAll (memPut m a v) (a + 1) vs

/-- The byte at `a`: the one listed, else the free value of the memory's fill (log 2). -/
def byteAt (m : Memory) (fill a : Nat) : Byte :=
  match memGet m a with
  | some v => v
  | none => Config.freeByte fill a

/-- Bytes 0 to `n − 1` as a memory (the commit's copy, spec/40_framer.md R158). -/
def copyPrefix (m : Memory) (fill n : Nat) : Memory :=
  (List.range n).map fun i => (i, byteAt m fill i)

/-- The canonical form: addresses strictly rising. -/
def memWf : Memory → Bool
  | [] => true
  | [_] => true
  | (a, _) :: (b, v) :: r => decide (a < b) && memWf ((b, v) :: r)

/-- Every listed address exists, that is, lies below CAP (spec/20_memory.md R60). -/
def memInCap (m : Memory) : Bool := m.all fun c => decide (c.1 < Config.cap)

/-- `BUF.payload[i]` (spec/00_scope.md R11). -/
def FrameBuffer.byte (b : FrameBuffer) (i : Nat) : Byte := byteAt b.payload b.fill i

/-- `RXA.payload[i]`. -/
def Staging.byte (b : Staging) (i : Nat) : Byte := byteAt b.payload b.fill i

/-! ## Events and free inputs (spec/00_scope.md R12) -/

/-- Record one call on the environment. -/
def emit (e : Event) (s : State) : State :=
  { s with world := { s.world with events := e :: s.world.events } }

/-- The byte the module supplies at an exchange: the next of the inbound stream, else free. -/
def nextByte (s : State) : Byte :=
  match s.world.inbound with
  | b :: _ => b
  | [] => Config.freeByte s.draws 0

/-- The inbound byte is consumed. -/
def dropByte (s : State) : State :=
  match s.world.inbound with
  | _ :: r => { s with world := { s.world with inbound := r } }
  | [] => { s with draws := s.draws + 1 }

/-- The level of the status line at a poll: the next scheduled, else free. -/
def nextStatus (s : State) : Power :=
  match s.world.statusIn with
  | p :: _ => p
  | [] => powerOfBit (Config.freeLevel s.draws)

/-- The status sample is consumed. -/
def dropStatus (s : State) : State :=
  match s.world.statusIn with
  | _ :: r => { s with world := { s.world with statusIn := r } }
  | [] => { s with draws := s.draws + 1 }

/-- The level of the attention line at a poll: the next scheduled, else free. -/
def nextAttn (s : State) : Bool :=
  match s.world.attnIn with
  | a :: _ => a
  | [] => Config.freeLevel s.draws

/-- The attention sample is consumed. -/
def dropAttn (s : State) : State :=
  match s.world.attnIn with
  | _ :: r => { s with world := { s.world with attnIn := r } }
  | [] => { s with draws := s.draws + 1 }

/-- One more call is answered. -/
def countCall (s : State) : State :=
  { s with world := { s.world with answers := s.world.answers.map (· - 1) } }

/-- A micro-step that waits for the environment to answer an `exchange`, a `delay` or a line read. When
it never answers the block has no step: it stays where it stands (spec/60_exceptions.md R301,
spec/93_implementation_defined.md U12, log 21). -/
def calling (f : State → State) (s : State) : State :=
  if s.world.answers = some 0 then s else f (countCall s)

/-- `exchange(XCH_OUT)`: one event, whose result stands on XCH_IN (R12, R301) until the receive state-step
samples it (R21). XCH_OUT keeps its byte until the next transmit state-step (DESIGN CHOICE, log 8). -/
def exchange (s : State) : State :=
  emit (.exchange s.line.xchOut (nextByte s))
    { dropByte s with line := { s.line with xchIn := some (nextByte s) } }

/-- The byte a receive state-step samples: the one on XCH_IN. Outside an exchange step, where no byte
stands there, it is a free value (log 8). -/
def inByte (s : State) : Byte :=
  match s.line.xchIn with
  | some b => b
  | none => Config.freeByte s.draws 0

/-- XCH_IN has been sampled: its byte is not latched any further (spec/10_state.md R21). -/
def takeIn (s : State) : State :=
  match s.line.xchIn with
  | some _ => { s with line := { s.line with xchIn := none } }
  | none => { s with draws := s.draws + 1 }

/-- `select(v)` (R12, R302). -/
def selectLine (v : Bool) (s : State) : State :=
  emit (.select v) { s with line := { s.line with select := v } }

/-- `delay(us)`: an event without effect (spec/70_reset_and_hazards.md R345). -/
def delay (us : Nat) (s : State) : State := emit (.delay us) s

/-- `set_request_line(st)` (R12, R303). -/
def setRequestLine (st : Power) (s : State) : State :=
  emit (.setRequestLine st) { s with line := { s.line with pwrReq := st } }

/-- `read_status_line()` (R12, R303): the sample is `nextStatus` of the state before. -/
def readStatusLine (s : State) : State := emit (.readStatus (nextStatus s)) (dropStatus s)

/-- `read_attention_line()` (R12, R303): the sample is `nextAttn` of the state before. -/
def readAttentionLine (s : State) : State := emit (.readAttn (nextAttn s)) (dropAttn s)

/-- `reset_assert()` (R12, R304). -/
def resetAssert (s : State) : State :=
  emit .resetAssert { s with line := { s.line with resetOut := true } }

/-- `reset_deassert()` (R12, R304). -/
def resetDeassert (s : State) : State :=
  emit .resetDeassert { s with line := { s.line with resetOut := false } }

/-! ## OPS -/

/-- The innermost operation goes to a new position. -/
def goto (a : Act) (s : State) : State := { s with ops := a :: s.ops.tail }

/-- The innermost operation runs another one, and will go on at `back`. -/
def call (a back : Act) (s : State) : State := { s with ops := a :: back :: s.ops.tail }

/-- The innermost operation ends: control returns to the operation that ran it, and BUSY falls when
it was the host's (spec/41_transaction.md R181; spec/10_state.md R37). -/
def finish (s : State) : State :=
  { s with ops := s.ops.tail, busy := if s.ops.tail = [] then false else s.busy }

/-- The host operation an activation belongs to. -/
def Act.instr : Act → Instr
  | .xfer _ => .xfer
  | .send c0 c1 plen _ => .sendCommand c0 c1 plen
  | .recv _ => .receiveResponse
  | .doCmd c0 c1 plen _ => .doCommand c0 c1 plen
  | .setPower st => .setPower st
  | .waitPower st _ => .waitPower st
  | .waitAttn _ => .waitAttn
  | .pulse _ => .resetPulse
  | .configure _ => .configure

/-- The host's operation in progress: the outermost activation's. -/
def current (s : State) : Option Instr := s.ops.getLast?.map Act.instr

/-! ## Block reset -/

/-- Block reset, also during an operation (spec/70_reset_and_hazards.md R320): every register at its
reset value, no closing event; the instance's constants, the module's and the host's plans and the
events made stay (log 20). The buffers' bytes become unspecified anew. -/
def blockReset (s : State) : State := State.resetWith s.params s.world s.draws

end Sys2Proof.Machine
end

