-- ==== Sys2Proof/Machine/Operands.lean ====
section
/-! DEFINITION. Operand forms: the layouts of the three shapes the block reads or writes field by field
(spec/20_memory.md R66 to R68), the wire length (R93), and the buffer image (R61 to R63). -/

namespace Sys2Proof.Machine

open Sys2Proof

/-- W = L + 1 (spec/30_encoding.md R93). -/
def wireLength (len : Half) : Half := len + 1

/-- RXN of RXW: RXW − 1, and 0 for RXW = 0 (spec/40_framer.md R153). -/
def dataLength (w : Half) : Half := if w = 0 then 0 else w - 1

/-- The size check of transmit mode: length 0, or at or above CAP (spec/41_transaction.md R172). -/
def badSize (len : Half) : Bool := decide (len.toNat = 0) || decide (Config.cap ≤ len.toNat)

/-- The size check of reception: RXN at or above CAP (spec/40_framer.md R154). -/
def tooLong (n : Half) : Bool := decide (Config.cap ≤ n.toNat)

/-! ## The command frame (R66) -/

/-- The length of a command frame: 3 + plen in 16 bits (spec/42_command.md R203). -/
def commandLength (plen : Byte) : Half := 3 + plen.setWidth 16

/-- TXBUF with a command frame's header fields: type, frame id, the two characters, length; the
parameter bytes stay as the caller left them (R202). -/
def writeCommand (id c0 c1 plen : Byte) (b : FrameBuffer) : FrameBuffer :=
  { b with
    frameType := Config.ftAtCommand
    payload := memPut (memPut (memPut b.payload 0 id) 1 c0) 2 c1
    length := commandLength plen }

/-- TXBUF with parameter bytes written from payload index 3 on (spec/44_sequencer.md R262, R265). -/
def writeParams (bytes : List Byte) (b : FrameBuffer) : FrameBuffer :=
  { b with payload := memPutAll b.payload 3 bytes }

/-- TXBUF asking for receive-only mode: the sentinel type and length 0 (spec/42_command.md R211). -/
def writeSentinel (b : FrameBuffer) : FrameBuffer :=
  { b with frameType := Config.ftNone, length := 0 }

/-! ## The command response (R67) and the modem status (R68) -/

/-- The frame is a command response long enough to hold its status byte (R222). -/
def isResponse (b : FrameBuffer) : Bool :=
  b.frameType == Config.ftAtResponse && decide (Config.respStatusOffset < b.length.toNat)

/-- The response's status byte (R221). -/
def responseStatus (b : FrameBuffer) : Byte := b.byte Config.respStatusOffset

/-- The frame is a modem status long enough to hold its status byte (R262). -/
def isModemStatus (b : FrameBuffer) : Bool :=
  b.frameType == Config.ftModemStatus && decide (Config.modemStatusOffset < b.length.toNat)

/-- The modem status (R68). -/
def modemStatus (b : FrameBuffer) : Byte := b.byte Config.modemStatusOffset

/-! ## The buffer image (R61 to R63) -/

/-- The number of bytes of a buffer image: CAP + 3 (R61). -/
def imageSize : Nat := Config.cap + 3

/-- The image byte at an address below `imageSize` (R61). -/
def imageByte (b : FrameBuffer) (a : Nat) : Byte :=
  match a with
  | 0 => loByte b.length
  | 1 => hiByte b.length
  | 2 => b.frameType
  | i + 3 => b.byte i

/-- The buffer with one image byte written (R61). -/
def setImageByte (b : FrameBuffer) (a : Nat) (v : Byte) : FrameBuffer :=
  match a with
  | 0 => { b with length := joinBytes (hiByte b.length) v }
  | 1 => { b with length := joinBytes v (loByte b.length) }
  | 2 => { b with frameType := v }
  | i + 3 => { b with payload := memPut b.payload i v }

/-- `MemRead(BUF, a, n)` as the bytes in address order (R63). -/
def memRead (b : FrameBuffer) (a n : Nat) : List Byte :=
  (List.range n).map fun i => imageByte b (a + i)

/-- `MemWrite(BUF, a, n, v)` with the bytes in address order (R63). -/
def memWrite : FrameBuffer → Nat → List Byte → FrameBuffer
  | b, _, [] => b
  | b, a, v :: vs => memWrite (setImageByte b a v) (a + 1) vs

end Sys2Proof.Machine
end

