-- ==== Sys2Proof/Machine/Flags.lean ====
section
/-! DEFINITION. Flag sets (spec/00_scope.md R13; spec/30_encoding.md R110) and `raise Flag(F)`
(spec/00_scope.md R11; spec/60_exceptions.md R283). -/

namespace Sys2Proof.Machine

open Sys2Proof

/-- The flag set `{f}` united with `r`. -/
def withFlag (f : Flag) (r : FlagSet) : FlagSet := r ||| flagCode f

/-- `f ∈ r`. -/
def hasFlag (f : Flag) (r : FlagSet) : Bool := (r &&& flagCode f) != 0

/-- {TX_SUCCESS, RX_SUCCESS} = 0x006, a command accepted (spec/42_command.md R223). -/
def accepted : FlagSet := withFlag .rxSuccess (withFlag .txSuccess 0)

/-- The flags a transaction raises, in XRESULT; the other three are raised by the command layer and
the waits, in RESULT (R110, column "raised by"; R11). -/
def raisedByXfer : Flag → Bool
  | .sizeError | .txSuccess | .rxSuccess | .noData | .rxTooLong | .badChecksum => true
  | .wrongFrame | .cmdRejected | .pollTimeout => false

/-- XRESULT gains the bit of `f`. -/
def raiseX (f : Flag) (s : State) : State :=
  { s with xf := { s.xf with xresult := withFlag f s.xf.xresult } }

/-- `raise Flag(f)`: the bit is set in the accumulator in use, and nothing else happens (R283). -/
def raiseFlag (f : Flag) (s : State) : State :=
  if raisedByXfer f then raiseX f s
  else { s with res := { s.res with result := withFlag f s.res.result } }

/-- `RESULT <- r`. -/
def setResult (r : FlagSet) (s : State) : State := { s with res := { s.res with result := r } }

end Sys2Proof.Machine
end

