-- ==== Sys2Proof/Machine/Handshake.lean ====
section
/-! DEFINITION. The power and attention handshake (spec/43_power.md) and the reset pulse
(spec/44_sequencer.md R250), one function per place of the pseudocode. -/

namespace Sys2Proof.Machine

open Sys2Proof

/-- SET_POWER: the line and RESULT, at once (R230, R231). -/
def setPowerMove (st : Power) (s : State) : State := finish (setResult 0 (setRequestLine st s))

/-- A wait has taken POLL_LIMIT samples (R234). -/
def pollLimitReached (s : State) (n : Nat) : Bool := s.params.pollLimit == some n

/-- A wait gives up: RESULT <- {POLL_TIMEOUT} (R234). -/
def giveUp (s : State) : State := finish (setResult (withFlag .pollTimeout 0) s)

/-- A wait is over: RESULT <- {}. -/
def waitDone (s : State) : State := finish (setResult 0 s)

/-- One round of WAIT_POWER: give up, or sample and compare with the operand (R232). The count `n`
advances as in R232's pseudocode, also with POLL_LIMIT = none, where R292 has no count and nothing reads
it (DESIGN CHOICE, log 26). -/
def waitPowerMove (st : Power) (n : Nat) (s : State) : State :=
  if pollLimitReached s n then giveUp s
  else calling (fun t =>
    if nextStatus t = st then waitDone (readStatusLine t)
    else goto (.waitPower st (n + 1)) (readStatusLine t)) s

/-- One round of WAIT_ATTN (R235); its count advances as WAIT_POWER's does (log 26). -/
def waitAttnMove (n : Nat) (s : State) : State :=
  if pollLimitReached s n then giveUp s
  else calling (fun t =>
    if nextAttn t then waitDone (readAttentionLine t)
    else goto (.waitAttn (n + 1)) (readAttentionLine t)) s

/-- One micro-step of RESET_PULSE: assert, delay, deassert (spec/44_sequencer.md R250). -/
def pulseMove (p : PulsePos) (s : State) : State :=
  match p with
  | .start => goto (.pulse .hold) (resetAssert s)
  | .hold => calling (fun t => goto (.pulse .release) (delay t.params.tResetUs t)) s
  | .release => finish (setResult 0 (resetDeassert s))

end Sys2Proof.Machine
end

