-- ==== Sys2Proof/Machine/Command.lean ====
section
/-! DEFINITION. The command layer (spec/42_command.md): SEND_COMMAND, RECEIVE_RESPONSE, DO_COMMAND, one
function per place of the pseudocode. -/

namespace Sys2Proof.Machine

open Sys2Proof

/-- `SEND_RESULT <- XRESULT` (R200). -/
def saveSend (s : State) : State := { s with res := { s.res with sendResult := s.xf.xresult } }

/-- One micro-step of SEND_COMMAND (R200): write TXBUF (R202, R203) and run XFER; then copy its
result. -/
def sendMove (c0 c1 plen : Byte) (p : SendPos) (s : State) : State :=
  match p with
  | .start =>
    call (.xfer .start) (.send c0 c1 plen .sent)
      { s with txbuf := writeCommand s.params.cmdFrameId c0 c1 plen s.txbuf }
  | .sent => finish (setResult s.xf.xresult (saveSend s))

/-- One micro-step of RECEIVE_RESPONSE (R210): wait for attention; then ask for receive-only mode
(R211) and run XFER, unless the wait gave up; then return XFER's result. -/
def recvMove (p : RecvPos) (s : State) : State :=
  match p with
  | .start => call (.waitAttn 0) (.recv .waited) s
  | .waited =>
    if hasFlag .pollTimeout s.res.result then giveUp s
    else call (.xfer .start) (.recv .received) { s with txbuf := writeSentinel s.txbuf }
  | .received => finish (setResult s.xf.xresult s)

/-- `CMD_STATUS <- RXBUF.payload[RESP_STATUS_OFFSET]` (R221). -/
def latchStatus (s : State) : State :=
  { s with res := { s.res with cmdStatus := responseStatus s.rxbuf } }

/-- Checks (b) to (d) of DO_COMMAND on the receive's result `fr`, in order (R220, R222). -/
def doVerdict (fr : FlagSet) (s : State) : State :=
  if !hasFlag .rxSuccess fr then setResult (withFlag .txSuccess fr) s
  else if !isResponse s.rxbuf then setResult (withFlag .wrongFrame (withFlag .txSuccess fr)) s
  else if responseStatus s.rxbuf ≠ Config.statusOk then
    setResult (withFlag .cmdRejected (withFlag .txSuccess fr)) (latchStatus s)
  else setResult (withFlag .txSuccess fr) (latchStatus s)

/-- One micro-step of DO_COMMAND (R220): run SEND_COMMAND; after check (a) run RECEIVE_RESPONSE; then
checks (b) to (d) and return. -/
def doMove (c0 c1 plen : Byte) (p : DoPos) (s : State) : State :=
  match p with
  | .start => call (.send c0 c1 plen .start) (.doCmd c0 c1 plen .sent) s
  | .sent =>
    if hasFlag .txSuccess s.res.sendResult then
      call (.recv .start) (.doCmd c0 c1 plen .received) s
    else finish (setResult s.res.sendResult s)
  | .received => finish (doVerdict s.res.result s)

end Sys2Proof.Machine
end

