-- ==== Sys2Proof/Machine/Sequencer.lean ====
section
/-! DEFINITION. The configuration sequencer CONFIGURE (spec/44_sequencer.md R260 to R267), one function per
place of the pseudocode R262. -/

namespace Sys2Proof.Machine

open Sys2Proof

/-- `SEQS <- st`. -/
def setSeqs (st : SeqState) (s : State) : State := { s with seq := { s.seq with seqs := st } }

/-- `SEQ_ATTEMPTS + 1`, saturating at 2^16 − 1 (R262; spec/10_state.md R36). -/
def satInc (h : Half) : Half := if h = 0xFFFF#16 then h else h + 1

/-- `SEQ_ATTEMPTS <- 0; CONFIGURED <- 0`. -/
def confClear (s : State) : State :=
  { s with seq := { s.seq with seqAttempts := 0, configured := false } }

/-- The reset step of an attempt: SEQS, SEQ_ATTEMPTS, and RESET_PULSE runs. -/
def confAttempt (s : State) : State :=
  call (.pulse .start) (.configure .pulsed)
    { s with seq := { s.seq with seqs := .reset, seqAttempts := satInc s.seq.seqAttempts } }

/-- The harvest receive found the module's "hardware reset" announcement (R262, R263 (1) to (3)). -/
def harvestGood (s : State) : Bool :=
  hasFlag .rxSuccess s.res.result && isModemStatus s.rxbuf &&
    decide (modemStatus s.rxbuf = Config.msHwReset)

/-- After the harvest: the first command, or another attempt. -/
def confHarvested (s : State) : State :=
  if harvestGood s then
    goto (.configure .command) { s with seq := { s.seq with seqs := .command, seqIdx := 0 } }
  else goto (.configure .attempt) s

/-- The CONFIG_SEQ entry SEQ_IDX selects. -/
def entryNow (s : State) : Config.Entry := s.params.configSeq[s.seq.seqIdx]

/-- Write the entry's parameter bytes and run DO_COMMAND (R262, R265). -/
def confCommand (s : State) : Out :=
  if (entryNow s).params.length ≤ Config.cap - 4 then
    .next (call
      (.doCmd (entryNow s).c0 (entryNow s).c1 (BitVec.ofNat 8 (entryNow s).params.length) .start)
      (.configure .commanded)
      { s with txbuf := writeParams (entryNow s).params s.txbuf })
  else .fault .configEntryTooLong

/-- The next value of SEQ_IDX, if the loop has another entry. -/
def nextIdx (i : Fin 3) : Option (Fin 3) :=
  match i with
  | 0 => some 1
  | 1 => some 2
  | 2 => none

/-- After a command: another attempt unless it was accepted (R263 (4)); else the next entry, or the
end. -/
def confCommanded (s : State) : State :=
  if s.res.result = accepted then
    match nextIdx s.seq.seqIdx with
    | some i => goto (.configure .command) { s with seq := { s.seq with seqIdx := i } }
    | none => finish { s with seq := { s.seq with seqs := .done, configured := true } }
  else goto (.configure .attempt) s

/-- One micro-step of CONFIGURE (R262). -/
def confMove (p : ConfPos) (s : State) : Out :=
  match p with
  | .start => .next (goto (.configure .attempt) (confClear s))
  | .attempt => .next (confAttempt s)
  | .pulsed => .next (call (.recv .start) (.configure .harvested) (setSeqs .harvest s))
  | .harvested => .next (confHarvested s)
  | .command => confCommand s
  | .commanded => .next (confCommanded s)

end Sys2Proof.Machine
end

