-- ==== Sys2Proof/Machine/FlagOps.lean ====
section
/-! DEFINITION. The meanings of the nine FLAG_ rows: `raise Flag(F)` (spec/60_exceptions.md R281, R283;
spec/30_encoding.md R110). -/

namespace Sys2Proof.Machine

open Sys2Proof

/-- Behind a `raise Flag(f)` line of its pseudocode XFER goes on to its return
(spec/41_transaction.md R170). -/
def leaveRaise (f : Flag) (s : State) : State :=
  match s.ops with
  | .xfer (.raise g) :: r => if g = f then { s with ops := .xfer .ret :: r } else s
  | _ => s

/-- Raise a flag as an instruction. -/
def raiseNow (f : Flag) (s : State) : Out := .next (leaveRaise f (raiseFlag f s))

/-- FLAG_SIZE_ERROR (spec/41_transaction.md R172). -/
def execFlagSizeError (s : State) : Out := raiseNow .sizeError s
/-- FLAG_TX_SUCCESS (spec/40_framer.md R137). -/
def execFlagTxSuccess (s : State) : Out := raiseNow .txSuccess s
/-- FLAG_RX_SUCCESS (spec/40_framer.md R157). -/
def execFlagRxSuccess (s : State) : Out := raiseNow .rxSuccess s
/-- FLAG_NO_DATA (spec/41_transaction.md R179). -/
def execFlagNoData (s : State) : Out := raiseNow .noData s
/-- FLAG_RX_TOO_LONG (spec/40_framer.md R154). -/
def execFlagRxTooLong (s : State) : Out := raiseNow .rxTooLong s
/-- FLAG_BAD_CHECKSUM (spec/40_framer.md R157). -/
def execFlagBadChecksum (s : State) : Out := raiseNow .badChecksum s
/-- FLAG_WRONG_FRAME (spec/42_command.md R220). -/
def execFlagWrongFrame (s : State) : Out := raiseNow .wrongFrame s
/-- FLAG_CMD_REJECTED (spec/42_command.md R220). -/
def execFlagCmdRejected (s : State) : Out := raiseNow .cmdRejected s
/-- FLAG_POLL_TIMEOUT (spec/43_power.md R234). -/
def execFlagPollTimeout (s : State) : Out := raiseNow .pollTimeout s

end Sys2Proof.Machine
end

