-- ==== Sys2Proof/Machine/Framer.lean ====
section
/-! DEFINITION. The framer (spec/40_framer.md): the bodies of the transmit and receive state-steps, the two
machines `txStep` (R138) and `rxStep` (R159), and the meanings of the thirteen STEP_ rows. A state-step
takes its byte from, or leaves its byte on, the exchange ports XCH_IN and XCH_OUT (log 8). -/

namespace Sys2Proof.Machine

open Sys2Proof

/-! ## The transmit machine -/

/-- The byte the transmit machine returns stands on XCH_OUT (spec/60_exceptions.md R301). -/
def present (b : Byte) (s : State) : State := { s with line := { s.line with xchOut := b } }

/-- `TXS <- st`. -/
def setTxs (st : TxState) (s : State) : State := { s with tx := { s.tx with txs := st } }

/-- R131: FILL, and TXS stays TX_IDLE. -/
def txIdle (s : State) : Out := .next (present Config.fill s)

/-- R132: DELIM. -/
def txHeader (s : State) : Out := .next (setTxs .lenHi (present Config.delim s))

/-- R133: W[15:8]. -/
def txLenHi (s : State) : Out :=
  .next (setTxs .lenLo (present (hiByte (wireLength s.txbuf.length)) s))

/-- R134: W[7:0]. -/
def txLenLo (s : State) : Out :=
  .next (setTxs .ftype (present (loByte (wireLength s.txbuf.length)) s))

/-- R135: the frame type, which starts the sum. -/
def txType (s : State) : Out :=
  .next { present s.txbuf.frameType s with
    tx := { txs := if 0 < s.txbuf.length.toNat then .data else .cksum
            txidx := 0
            txsum := s.txbuf.frameType } }

/-- R136: the next payload byte, which enters the sum. A TXIDX outside the array is a fault (R76). -/
def txData (s : State) : Out :=
  if s.tx.txidx.toNat < Config.cap then
    .next { present (s.txbuf.byte s.tx.txidx.toNat) s with
      tx := { txs := if s.tx.txidx + 1 = s.txbuf.length then .cksum else .data
              txidx := s.tx.txidx + 1
              txsum := s.tx.txsum + s.txbuf.byte s.tx.txidx.toNat } }
  else .fault .payloadIndexOutOfRange

/-- R137: the checksum; TX_SUCCESS. -/
def txCksum (s : State) : Out :=
  .next (raiseFlag .txSuccess (setTxs .idle (present (checksum s.tx.txsum) s)))

/-- The transmit machine as one function (R138). -/
def txStep (s : State) : Out :=
  match s.tx.txs with
  | .idle => txIdle s
  | .header => txHeader s
  | .lenHi => txLenHi s
  | .lenLo => txLenLo s
  | .ftype => txType s
  | .data => txData s
  | .cksum => txCksum s

/-! ## The receive machine -/

/-- `RXS <- st`. -/
def setRxs (st : RxState) (s : State) : State := { s with rx := { s.rx with rxs := st } }

/-- R150: only the delimiter leaves RX_IDLE; it marks RXSEEN and zeroes RETRY. -/
def rxIdle (b : Byte) (s : State) : State :=
  if b = Config.delim then
    { s with rx := { s.rx with rxs := .lenHi, rxlong := false }
             xf := { s.xf with rxseen := true, retry := 0 } }
  else s

/-- R151: RXW[15:8]. -/
def rxLenHi (b : Byte) (s : State) : State :=
  { s with rx := { s.rx with rxw := joinBytes b (loByte s.rx.rxw), rxs := .lenLo } }

/-- RXLONG and RX_TOO_LONG once RXN is known (R154). -/
def rxLongTest (s : State) : State :=
  if tooLong s.rx.rxn then raiseFlag .rxTooLong { s with rx := { s.rx with rxlong := true } }
  else s

/-- R152, R153, R154: RXW[7:0], RXN, the too-long test. -/
def rxLenLo (b : Byte) (s : State) : State :=
  rxLongTest { s with
    rx := { s.rx with
      rxw := joinBytes (hiByte s.rx.rxw) b
      rxn := dataLength (joinBytes (hiByte s.rx.rxw) b)
      rxs := .ftype } }

/-- R155: the type byte, which starts the sum. -/
def rxType (b : Byte) (s : State) : State :=
  { s with
    rxa := { s.rxa with frameType := b }
    rx := { s.rx with
      rxsum := b
      rxidx := 0
      rxs := if 0 < s.rx.rxn.toNat then .data else .cksum } }

/-- A data byte is stored only below CAP (R76, R156). -/
def stage (i : Nat) (b : Byte) (a : Staging) : Staging :=
  if i < Config.cap then { a with payload := memPut a.payload i b } else a

/-- R156: a data byte, which enters the sum whether stored or not. -/
def rxData (b : Byte) (s : State) : State :=
  { s with
    rxa := stage s.rx.rxidx.toNat b s.rxa
    rx := { s.rx with
      rxsum := s.rx.rxsum + b
      rxidx := s.rx.rxidx + 1
      rxs := if s.rx.rxidx + 1 = s.rx.rxn then .cksum else .data } }

/-- Commit (R158): RXBUF takes RXN, the type and bytes 0 to RXN − 1 of RXA; its bytes from RXN on
become unspecified (log 2). -/
def commit (s : State) : State :=
  { s with
    rxbuf := { length := s.rx.rxn
               frameType := s.rxa.frameType
               payload := copyPrefix s.rxa.payload s.rxa.fill s.rx.rxn.toNat
               fill := s.draws }
    draws := s.draws + 1 }

/-- R157: the checksum decides between commit, a silent end of a too-long frame, and BAD_CHECKSUM.
DESIGN CHOICE (log 29, unsafe): RXA and the frame's counters keep the values of the frame that ended,
where R287 and U5 leave them unspecified. -/
def rxCksum (b : Byte) (s : State) : State :=
  setRxs .idle
    (if b = checksum s.rx.rxsum then
      if s.rx.rxlong then s else raiseFlag .rxSuccess (commit s)
    else raiseFlag .badChecksum s)

/-- The receive machine as one procedure (R159). -/
def rxStep (b : Byte) (s : State) : State :=
  match s.rx.rxs with
  | .idle => rxIdle b s
  | .lenHi => rxLenHi b s
  | .lenLo => rxLenLo b s
  | .ftype => rxType b s
  | .data => rxData b s
  | .cksum => rxCksum b s

/-! ## State-steps inside an exchange step (spec/41_transaction.md R176) -/

/-- Behind the Tx state-step XFER stands at its `exchange`. -/
def leaveTx (s : State) : State :=
  match s.ops with
  | .xfer .loop :: r => { s with ops := .xfer .exch :: r }
  | _ => s

/-- Behind the Rx state-step XFER stands at the retry update, with `was_idle` (R170). -/
def leaveRx (wasIdle : Bool) (s : State) : State :=
  match s.ops with
  | .xfer .rx :: r => { s with ops := .xfer (.after wasIdle) :: r }
  | _ => s

/-- A transmit state-step fires in its state only (spec/00_scope.md R14). -/
def fireTx (st : TxState) (body : State → Out) (s : State) : Out :=
  if s.tx.txs = st then andThen (body s) fun t => .next (leaveTx t)
  else .refused .stateStepNotEnabled

/-- A receive state-step fires in its state only, on the byte of XCH_IN, which it takes. -/
def fireRx (st : RxState) (body : Byte → State → State) (s : State) : Out :=
  if s.rx.rxs = st then .next (leaveRx (decide (st = .idle)) (body (inByte s) (takeIn s)))
  else .refused .stateStepNotEnabled

/-! ## Meanings of the STEP_ rows -/

/-- STEP_TX_IDLE (R131). -/
def execStepTxIdle (s : State) : Out := fireTx .idle txIdle s
/-- STEP_TX_HEADER (R132). -/
def execStepTxHeader (s : State) : Out := fireTx .header txHeader s
/-- STEP_TX_LEN_HI (R133). -/
def execStepTxLenHi (s : State) : Out := fireTx .lenHi txLenHi s
/-- STEP_TX_LEN_LO (R134). -/
def execStepTxLenLo (s : State) : Out := fireTx .lenLo txLenLo s
/-- STEP_TX_TYPE (R135). -/
def execStepTxType (s : State) : Out := fireTx .ftype txType s
/-- STEP_TX_DATA (R136). -/
def execStepTxData (s : State) : Out := fireTx .data txData s
/-- STEP_TX_CKSUM (R137). -/
def execStepTxCksum (s : State) : Out := fireTx .cksum txCksum s

/-- STEP_RX_IDLE (R150). -/
def execStepRxIdle (s : State) : Out := fireRx .idle rxIdle s
/-- STEP_RX_LEN_HI (R151). -/
def execStepRxLenHi (s : State) : Out := fireRx .lenHi rxLenHi s
/-- STEP_RX_LEN_LO (R152 to R154). -/
def execStepRxLenLo (s : State) : Out := fireRx .lenLo rxLenLo s
/-- STEP_RX_TYPE (R155). -/
def execStepRxType (s : State) : Out := fireRx .ftype rxType s
/-- STEP_RX_DATA (R156). -/
def execStepRxData (s : State) : Out := fireRx .data rxData s
/-- STEP_RX_CKSUM (R157, R158). -/
def execStepRxCksum (s : State) : Out := fireRx .cksum rxCksum s

end Sys2Proof.Machine
end

