-- ==== Sys2Proof/Machine/Transaction.lean ====
section
/-! DEFINITION. The transaction engine's operation XFER (spec/41_transaction.md), one function per place of
its pseudocode (R170), and reception of a whole frame: the meanings of the six FRAME_ rows. -/

namespace Sys2Proof.Machine

open Sys2Proof

/-- `XRESULT <- 0` (R173). -/
def clearX (s : State) : State := { s with xf := { s.xf with xresult := 0 } }

/-- Load the registers of a transaction (R173). -/
def loadXfer (only : Bool) (st : TxState) (retry : Nat) (s : State) : State :=
  { s with
    tx := { s.tx with txs := st }
    rx := { s.rx with rxs := .idle }
    xf := { s.xf with rxonly := only, retry := retry, rxseen := false } }

/-- The start of a transaction: mode (R171), size check (R172), loads (R173), `select(1)` (R174). -/
def xferStart (s : State) : State :=
  if s.txbuf.frameType = Config.ftNone then
    goto (.xfer .selDelay)
      (selectLine true (loadXfer true .idle s.params.retryBudget (clearX s)))
  else if badSize s.txbuf.length then goto (.xfer (.raise .sizeError)) (clearX s)
  else goto (.xfer .selDelay) (selectLine true (loadXfer false .header 0 (clearX s)))

/-- The loop condition (R177). -/
def loopCond (s : State) : Bool :=
  decide (s.tx.txs ≠ .idle) || decide (s.rx.rxs ≠ .idle) || decide (0 < s.xf.retry)

/-- The loop test: another exchange step, whose Tx state-step fires now, or `select(0)` (R176, R177,
R180). -/
def xferLoop (s : State) : Out :=
  if loopCond s then andThen (txStep s) fun t => .next (leaveTx t)
  else .next (goto (.xfer .finish) (selectLine false s))

/-- `b <- exchange(out)` (R176). -/
def xferExch (s : State) : State := calling (fun t => goto (.xfer .rx) (exchange t)) s

/-- `rx_step(b)` (R176) on the byte of XCH_IN, which leaves `was_idle` behind. -/
def xferRx (s : State) : State :=
  leaveRx (decide (s.rx.rxs = .idle)) (rxStep (inByte s) (takeIn s))

/-- The retry update (R178). -/
def retryUpdate (wasIdle : Bool) (s : State) : State :=
  if wasIdle && decide (s.rx.rxs = .idle) && decide (0 < s.xf.retry) then
    { s with xf := { s.xf with retry := s.xf.retry - 1 } }
  else s

/-- The retry update (R178), made before the byte delay is called (R170, R176). -/
def xferAfter (wasIdle : Bool) (s : State) : State :=
  goto (.xfer .byteDelay) (retryUpdate wasIdle s)

/-- `delay(T_BYTE_US)` (R176). -/
def xferByteDelay (s : State) : State :=
  calling (fun t => goto (.xfer .loop) (delay t.params.tByteUs t)) s

/-- `delay(T_SELECT_US)` (R174). -/
def xferSelDelay (s : State) : State :=
  calling (fun t => goto (.xfer .loop) (delay t.params.tSelectUs t)) s

/-- `RESULT <- XRESULT`, and return (R181). -/
def xferRet (s : State) : State := finish (setResult s.xf.xresult s)

/-- After `select(0)`: NO_DATA is due (R179), or the return. -/
def xferFinish (s : State) : State :=
  if s.xf.rxonly && !s.xf.rxseen then goto (.xfer (.raise .noData)) s else xferRet s

/-- One micro-step of XFER (R170). -/
def xferMove (p : XferPos) (s : State) : Out :=
  match p with
  | .start => .next (xferStart s)
  | .selDelay => .next (xferSelDelay s)
  | .loop => xferLoop s
  | .exch => .next (xferExch s)
  | .rx => .next (xferRx s)
  | .after w => .next (xferAfter w s)
  | .byteDelay => .next (xferByteDelay s)
  | .finish => .next (xferFinish s)
  | .raise f => raiseNow f s
  | .ret => .next (xferRet s)

/-! ## Whole exchange steps, and frames -/

/-- XFER stands at its loop test. -/
def atLoop (s : State) : Bool :=
  s.busy && match s.ops with
    | .xfer .loop :: _ => true
    | _ => false

/-- One whole exchange step (R176) when the loop goes on; otherwise nothing: every exchange is
started by the block (spec/60_exceptions.md R301). When the exchange or the byte delay never returns the
block stays at it. -/
def exchangeRound (s : State) : Out :=
  if atLoop s && loopCond s then
    andThen (xferLoop s) fun t =>
      if t.world.answers = some 0 then .next t
      else .next
        (xferByteDelay (xferAfter (decide (t.rx.rxs = .idle)) (xferRx (xferExch t))))
  else .next s

/-- `n` exchange steps, as long as the loop goes on. -/
def exchangeRounds : Nat → State → Out
  | 0, s => .next s
  | n + 1, s => andThen (exchangeRound s) (exchangeRounds n)

/-- The module sends these bytes next: they stand at the front of the inbound stream, and the
transaction in progress exchanges them, one exchange step a byte, as long as its loop goes on. What
it does not exchange stays with the module (log 9). -/
def receiveBytes (bytes : List Byte) (s : State) : Out :=
  exchangeRounds bytes.length
    { s with world := { s.world with inbound := bytes ++ s.world.inbound } }

/-- FRAME_GENERIC (spec/30_encoding.md R90; spec/40_framer.md R149 to R159). -/
def execFrameGeneric (w : Half) (t : Byte) (payload : List Byte) (ck : Byte) (s : State) : Out :=
  receiveBytes (frameBytes w t payload ck) s
/-- FRAME_AT_COMMAND (spec/20_memory.md R66). -/
def execFrameAtCommand (w : Half) (payload : List Byte) (ck : Byte) (s : State) : Out :=
  receiveBytes (frameBytes w Config.ftAtCommand payload ck) s
/-- FRAME_AT_RESPONSE (spec/20_memory.md R67). -/
def execFrameAtResponse (w : Half) (payload : List Byte) (ck : Byte) (s : State) : Out :=
  receiveBytes (frameBytes w Config.ftAtResponse payload ck) s
/-- FRAME_MODEM_STATUS (spec/20_memory.md R68). -/
def execFrameModemStatus (w : Half) (payload : List Byte) (ck : Byte) (s : State) : Out :=
  receiveBytes (frameBytes w Config.ftModemStatus payload ck) s
/-- FRAME_TX_REQUEST (spec/30_encoding.md R100). -/
def execFrameTxRequest (w : Half) (payload : List Byte) (ck : Byte) (s : State) : Out :=
  receiveBytes (frameBytes w Config.ftTxRequest payload ck) s
/-- FRAME_RX_INDICATION (spec/30_encoding.md R100). -/
def execFrameRxIndication (w : Half) (payload : List Byte) (ck : Byte) (s : State) : Out :=
  receiveBytes (frameBytes w Config.ftRxIndication payload ck) s

end Sys2Proof.Machine
end

