-- ==== Sys2Proof/Machine/HostOps.lean ====
section
/-! DEFINITION. The nine host operations as instructions, and the reserved codes. With BUSY = 0 a host
operation is accepted and makes its first micro-step; with BUSY = 1 the operation in progress goes on by
one micro-step, and any other is refused (spec/10_state.md R37; spec/70_reset_and_hazards.md R330;
log 7). -/

namespace Sys2Proof.Machine

open Sys2Proof

/-- One micro-step of an activation. -/
def move (a : Act) (s : State) : Out :=
  match a with
  | .xfer p => xferMove p s
  | .send c0 c1 plen p => .next (sendMove c0 c1 plen p s)
  | .recv p => .next (recvMove p s)
  | .doCmd c0 c1 plen p => .next (doMove c0 c1 plen p s)
  | .setPower st => .next (setPowerMove st s)
  | .waitPower st n => .next (waitPowerMove st n s)
  | .waitAttn n => .next (waitAttnMove n s)
  | .pulse p => .next (pulseMove p s)
  | .configure p => confMove p s

/-- The innermost operation makes one micro-step. With no operation in progress there is nothing to
do and BUSY is 0 (log 22). -/
def resume (s : State) : Out :=
  match s.ops with
  | [] => .next { s with busy := false }
  | a :: _ => move a s

/-- A host operation, given by its first activation (spec/10_state.md R37). -/
def hostOp (a : Act) (s : State) : Out :=
  if s.busy then
    if current s = some a.instr then resume s else .refused .requestWhileBusy
  else resume { s with busy := true, ops := [a] }

/-- XFER (spec/41_transaction.md R170). -/
def execXfer (s : State) : Out := hostOp (.xfer .start) s
/-- SEND_COMMAND (spec/42_command.md R200). -/
def execSendCommand (c0 c1 plen : Byte) (s : State) : Out := hostOp (.send c0 c1 plen .start) s
/-- RECEIVE_RESPONSE (spec/42_command.md R210). -/
def execReceiveResponse (s : State) : Out := hostOp (.recv .start) s
/-- DO_COMMAND (spec/42_command.md R220). -/
def execDoCommand (c0 c1 plen : Byte) (s : State) : Out := hostOp (.doCmd c0 c1 plen .start) s
/-- SET_POWER (spec/43_power.md R230). -/
def execSetPower (st : Power) (s : State) : Out := hostOp (.setPower st) s
/-- WAIT_POWER (spec/43_power.md R232). -/
def execWaitPower (st : Power) (s : State) : Out := hostOp (.waitPower st 0) s
/-- WAIT_ATTN (spec/43_power.md R235). -/
def execWaitAttn (s : State) : Out := hostOp (.waitAttn 0) s
/-- RESET_PULSE (spec/44_sequencer.md R250). -/
def execResetPulse (s : State) : Out := hostOp (.pulse .start) s
/-- CONFIGURE (spec/44_sequencer.md R260, R262). -/
def execConfigure (s : State) : Out := hostOp (.configure .start) s

/-- A reserved operation code is not an operation; the block does not accept it, and a model refuses
it (spec/30_encoding.md R106, U8; log 14). -/
def reserved (s : State) : Out :=
  if s.busy then .refused .requestWhileBusy else .refused .reservedOperation

/-- RESERVED_0 (R106). -/
def execReserved0 (s : State) : Out := reserved s
/-- RESERVED_A (R106). -/
def execReservedA (s : State) : Out := reserved s
/-- RESERVED_B (R106). -/
def execReservedB (s : State) : Out := reserved s
/-- RESERVED_C (R106). -/
def execReservedC (s : State) : Out := reserved s
/-- RESERVED_D (R106). -/
def execReservedD (s : State) : Out := reserved s
/-- RESERVED_E (R106). -/
def execReservedE (s : State) : Out := reserved s
/-- RESERVED_F (R106). -/
def execReservedF (s : State) : Out := reserved s

end Sys2Proof.Machine
end

