-- ==== Sys2Proof/Machine/Port.lean ====
section
/-! DEFINITION. The host port (spec/10_state.md R43; spec/60_exceptions.md R305) and the fetch of the next
instruction: the host's request word, the frame or state-step or flag the transaction stands at, else the
operation in progress. -/

namespace Sys2Proof.Machine

open Sys2Proof

/-- The Frame Buffer the host reads. -/
def bufOf (b : Buf) (s : State) : FrameBuffer :=
  match b with
  | .tx => s.txbuf
  | .rx => s.rxbuf

/-- One bit as a register value. -/
def bitHalf (b : Bool) : Half := if b then 1 else 0

/-- The value the host reads from a register. -/
def readHostReg (r : HostReg) (s : State) : Half :=
  match r with
  | .xresult => s.xf.xresult.setWidth 16
  | .result => s.res.result.setWidth 16
  | .sendResult => s.res.sendResult.setWidth 16
  | .cmdStatus => s.res.cmdStatus.setWidth 16
  | .busy => bitHalf s.busy
  | .seqAttempts => s.seq.seqAttempts
  | .configured => bitHalf s.seq.configured
  | .select => bitHalf s.line.select
  | .pwrReq => (powerBit s.line.pwrReq).setWidth 16
  | .resetOut => bitHalf s.line.resetOut

/-- The registers the host may read at any time (R43). -/
def anyTime (r : HostReg) : Bool :=
  match r with
  | .xresult | .result | .sendResult | .cmdStatus => false
  | .busy | .seqAttempts | .configured | .select | .pwrReq | .resetOut => true

/-- The host action at the front is done. -/
def popHost (s : State) : State :=
  { s with world := { s.world with host := s.world.host.tail } }

/-- A `pass` at the front is used up by the step it lets the block make. -/
def dropPass (s : State) : State :=
  match s.world.host with
  | .pass :: _ => popHost s
  | _ => s

/-- MemWrite on TXBUF by the host, while BUSY = 0 and inside the image (R43, R62, R63, R331). An access of
no bytes is accepted at an address up to the image's size (DESIGN CHOICE, log 30). -/
def hostWrite (a : Nat) (bytes : List Byte) (s : State) : Out :=
  if s.busy then .refused .hostAccessWhileBusy
  else if a + bytes.length ≤ imageSize then
    .next { popHost s with txbuf := memWrite s.txbuf a bytes }
  else .refused .noSuchImageAddress

/-- MemRead by the host, while BUSY = 0 and inside the image; one of no bytes as for `hostWrite`
(log 30). -/
def hostRead (b : Buf) (a n : Nat) (s : State) : Out :=
  if s.busy then .refused .hostAccessWhileBusy
  else if a + n ≤ imageSize then
    .next { s with world :=
      { s.world with host := s.world.host.tail, hostBytes := memRead (bufOf b s) a n } }
  else .refused .noSuchImageAddress

/-- A register read by the host (R43, R331). -/
def hostReadReg (r : HostReg) (s : State) : Out :=
  if s.busy && !anyTime r then .refused .hostAccessWhileBusy
  else .next { s with world :=
    { s.world with host := s.world.host.tail, hostWord := readHostReg r s } }

/-- What the host does now. `none`: the host does nothing in this step (it has nothing to do, it waits
for BUSY = 0, it lets this step pass, or its request is the instruction to fetch). -/
def hostTurn (s : State) : Option Out :=
  match s.world.host with
  | [] => none
  | .request _ :: _ => if s.busy then some (.refused .requestWhileBusy) else none
  | .awaitIdle :: _ => if s.busy then none else some (.next (popHost s))
  | .pass :: _ => none
  | .write a bytes :: _ => some (hostWrite a bytes s)
  | .read b a n :: _ => some (hostRead b a n s)
  | .readReg r :: _ => some (hostReadReg r s)
  | .reset :: _ => some (.next (blockReset (popHost s)))

/-- The frame at the front of the inbound stream, when the wire is taken a frame at a time (log 9),
with the stream behind it. -/
def fetchFrame (s : State) : Option (Instr × State) :=
  match s.world.grain with
  | .byte => none
  | .frame =>
    match decodeFrame s.world.inbound with
    | .ok (i, rest) => some (i, { s with world := { s.world with inbound := rest } })
    | .error _ => none

/-- The operation in progress as the instruction. -/
def fetchOp (s : State) : Option (Instr × State) := (current s).map fun i => (i, s)

/-- The instruction inside an operation: at the loop test of a transaction that goes on, the frame
on the wire or the transmit state-step of TXS; behind `exchange`, the receive state-step of RXS; at
a `raise` line, the flag; elsewhere the operation itself (spec/00_scope.md R6). -/
def fetchBusy (s : State) : Option (Instr × State) :=
  match s.ops with
  | .xfer .loop :: _ =>
    if loopCond s then
      match fetchFrame s with
      | some r => some r
      | none => some (txInstr s.tx.txs, s)
    else fetchOp s
  | .xfer .rx :: _ => some (rxInstr s.rx.rxs, s)
  | .xfer (.raise f) :: _ => some (flagInstr f, s)
  | _ => fetchOp s

/-- The next instruction, with the state in which it runs, its request or the host's `pass` taken off the
list; `none` when there is none. -/
def fetch (s : State) : Option (Instr × State) :=
  if s.busy then fetchBusy (dropPass s)
  else
    match s.world.host with
    | .request w :: _ => some (decodeRequest w, popHost s)
    | _ => none

/-- With nothing to fetch the block does nothing (spec/70_reset_and_hazards.md R322; log 22). -/
def idleStep (s : State) : Out := .next { dropPass s with busy := false }

/-! ## Placing an instruction where the step fetches it -/

/-- A transaction in receive-only mode that has an exchange step to make, with no host action pending
and the wire taken a byte at a time (log 11, log 12). -/
def inLoop (s : State) : State :=
  { s with
    busy := true
    ops := [.xfer .loop]
    tx := { s.tx with txs := .idle }
    rx := { s.rx with rxs := .idle }
    xf := { s.xf with retry := 1, rxonly := true, rxseen := false }
    line := { s.line with select := true }
    world := { s.world with host := [], grain := .byte } }

/-- The state with a code placed where the next fetch takes it from (log 11, log 12). -/
def place (c : Code) (s : State) : State :=
  match c with
  | .request w =>
    { s with busy := false, ops := [], world := { s.world with host := .request w :: s.world.host } }
  | .wire bytes =>
    { inLoop s with
      world := { (inLoop s).world with grain := .frame, inbound := bytes ++ s.world.inbound } }
  | .txState c => setTxs ((txStateOfCode c).getD .idle) (inLoop s)
  | .rxState c =>
    setRxs ((rxStateOfCode c).getD .idle)
      { inLoop s with ops := [.xfer .rx], line := { (inLoop s).line with xchIn := some 0 } }
  | .flag c => { inLoop s with ops := [.xfer (.raise ((flagOfCode c).getD .sizeError))] }

end Sys2Proof.Machine
end

