-- ==== Sys2Proof/Machine/Dispatch.lean ====
section
/-! DEFINITION. The dispatch: one arm per row of spec/opcode_table.json. -/

namespace Sys2Proof.Machine

open Sys2Proof

def exec (i : Instr) (s : State) : Host.Outcome State Fault Refusal :=
  match i with
  | .xfer => Sys2Proof.Machine.execXfer s
  | .sendCommand c0 c1 plen => Sys2Proof.Machine.execSendCommand c0 c1 plen s
  | .receiveResponse => Sys2Proof.Machine.execReceiveResponse s
  | .doCommand c0 c1 plen => Sys2Proof.Machine.execDoCommand c0 c1 plen s
  | .setPower st => Sys2Proof.Machine.execSetPower st s
  | .waitPower st => Sys2Proof.Machine.execWaitPower st s
  | .waitAttn => Sys2Proof.Machine.execWaitAttn s
  | .resetPulse => Sys2Proof.Machine.execResetPulse s
  | .configure => Sys2Proof.Machine.execConfigure s
  | .reserved0 => Sys2Proof.Machine.execReserved0 s
  | .reservedA => Sys2Proof.Machine.execReservedA s
  | .reservedB => Sys2Proof.Machine.execReservedB s
  | .reservedC => Sys2Proof.Machine.execReservedC s
  | .reservedD => Sys2Proof.Machine.execReservedD s
  | .reservedE => Sys2Proof.Machine.execReservedE s
  | .reservedF => Sys2Proof.Machine.execReservedF s
  | .frameGeneric w t payload ck => Sys2Proof.Machine.execFrameGeneric w t payload ck s
  | .frameAtCommand w payload ck => Sys2Proof.Machine.execFrameAtCommand w payload ck s
  | .frameAtResponse w payload ck => Sys2Proof.Machine.execFrameAtResponse w payload ck s
  | .frameModemStatus w payload ck => Sys2Proof.Machine.execFrameModemStatus w payload ck s
  | .frameTxRequest w payload ck => Sys2Proof.Machine.execFrameTxRequest w payload ck s
  | .frameRxIndication w payload ck => Sys2Proof.Machine.execFrameRxIndication w payload ck s
  | .stepTxIdle => Sys2Proof.Machine.execStepTxIdle s
  | .stepTxHeader => Sys2Proof.Machine.execStepTxHeader s
  | .stepTxLenHi => Sys2Proof.Machine.execStepTxLenHi s
  | .stepTxLenLo => Sys2Proof.Machine.execStepTxLenLo s
  | .stepTxType => Sys2Proof.Machine.execStepTxType s
  | .stepTxData => Sys2Proof.Machine.execStepTxData s
  | .stepTxCksum => Sys2Proof.Machine.execStepTxCksum s
  | .stepRxIdle => Sys2Proof.Machine.execStepRxIdle s
  | .stepRxLenHi => Sys2Proof.Machine.execStepRxLenHi s
  | .stepRxLenLo => Sys2Proof.Machine.execStepRxLenLo s
  | .stepRxType => Sys2Proof.Machine.execStepRxType s
  | .stepRxData => Sys2Proof.Machine.execStepRxData s
  | .stepRxCksum => Sys2Proof.Machine.execStepRxCksum s
  | .flagSizeError => Sys2Proof.Machine.execFlagSizeError s
  | .flagTxSuccess => Sys2Proof.Machine.execFlagTxSuccess s
  | .flagRxSuccess => Sys2Proof.Machine.execFlagRxSuccess s
  | .flagNoData => Sys2Proof.Machine.execFlagNoData s
  | .flagRxTooLong => Sys2Proof.Machine.execFlagRxTooLong s
  | .flagBadChecksum => Sys2Proof.Machine.execFlagBadChecksum s
  | .flagWrongFrame => Sys2Proof.Machine.execFlagWrongFrame s
  | .flagCmdRejected => Sys2Proof.Machine.execFlagCmdRejected s
  | .flagPollTimeout => Sys2Proof.Machine.execFlagPollTimeout s

end Sys2Proof.Machine
end

