-- ==== Sys2Proof/Machine/Step.lean ====
section
/-! DEFINITION. One step of the machine: the host acts, or the next instruction is fetched and run, or the
block is idle (spec/00_scope.md R7; spec/70_reset_and_hazards.md R322). -/

namespace Sys2Proof.Machine

open Sys2Proof

/-- One step. -/
def step (s : State) : Host.Outcome State Fault Refusal :=
  match hostTurn s with
  | some o => o
  | none =>
    match fetch s with
    | some (i, t) => exec i t
    | none => idleStep s

/-- `s` with a table word placed where `step` fetches its next instruction (log 11, log 12). -/
def State.withFetchWord (s : State) (nbits w : Nat) : State := place (tableCode nbits w) s

end Sys2Proof.Machine
end

