-- ==== Sys2Proof/Safety.lean ====
section
/-! DEFINITION. What claims are stated in: the byte streams and counts read off the event list, the two
machines run on byte sequences, the invariant that every step keeps, and safe steps. -/

namespace Sys2Proof.Machine

open Sys2Proof

/-! ## Observations of the event list -/

/-- The bytes handed to `exchange` in call order (spec/20_memory.md R60 (4)); the list of events is newest
first. -/
def outStream : List Event → List Byte
  | [] => []
  | .exchange out _ :: es => outStream es ++ [out]
  | _ :: es => outStream es

/-- The bytes `exchange` returned, in call order (R60 (5)). -/
def inStream : List Event → List Byte
  | [] => []
  | .exchange _ inn :: es => inStream es ++ [inn]
  | _ :: es => inStream es

/-! ## The two machines on byte sequences (spec/40_framer.md R138, R159, R162) -/

/-- `n` calls of `tx_step`, with the bytes they return in order. -/
def txRun : Nat → State → List Byte → Option (List Byte × State)
  | 0, s, acc => some (acc, s)
  | n + 1, s, acc =>
    match txStep s with
    | .next t => txRun n t (acc ++ [t.line.xchOut])
    | .fault _ => none
    | .refused _ => none

/-- `rx_step` fed a sequence of bytes in order. -/
def rxFeed (bytes : List Byte) (s : State) : State := bytes.foldl (fun t b => rxStep b t) s

/-- The frame a buffer would be on the wire (spec/30_encoding.md R90, R93, R96). -/
def frameOf (b : FrameBuffer) : List Byte :=
  let payload := (List.range b.length.toNat).map b.byte
  frameBytes (wireLength b.length) b.frameType payload (checksum (byteSum b.frameType payload))

/-! ## The invariant -/

/-- XFER's positions between `select(1)` and `select(0)` (spec/10_state.md R33). -/
def selected : XferPos → Bool
  | .selDelay | .loop | .exch | .rx | .after _ | .byteDelay => true
  | .start | .finish | .raise _ | .ret => false

/-- A transaction is between its `select(1)` and its `select(0)`. -/
def inTransaction (s : State) : Bool :=
  s.busy && match s.ops with
    | .xfer p :: _ => selected p
    | _ => false

/-- A reset pulse is between `reset_assert` and `reset_deassert` (spec/44_sequencer.md R251). -/
def inPulse (s : State) : Bool :=
  s.busy && match s.ops with
    | .pulse p :: _ => decide (p ≠ .start)
    | _ => false

/-- An operation that waits for the one it runs. -/
def waiting : Act → Bool
  | .send _ _ _ p => decide (p ≠ .start)
  | .recv p => decide (p ≠ .start)
  | .doCmd _ _ _ p => decide (p ≠ .start)
  | .configure p => decide (p = .pulsed ∨ p = .harvested ∨ p = .commanded)
  | .xfer _ | .setPower _ | .waitPower _ _ | .waitAttn _ | .pulse _ => false

/-- The three payload memories have the canonical form and list only addresses that exist. -/
def MemoryOk (s : State) : Prop :=
  (memWf s.txbuf.payload = true ∧ memInCap s.txbuf.payload = true) ∧
  (memWf s.rxbuf.payload = true ∧ memInCap s.rxbuf.payload = true) ∧
  (memWf s.rxa.payload = true ∧ memInCap s.rxa.payload = true)

/-- RXBUF holds a frame that fits (spec/10_state.md R24). -/
def RxbufOk (s : State) : Prop := s.rxbuf.length.toNat < Config.cap

/-- BUSY says whether an operation is in progress (R37), and every operation below the innermost one
waits for the one above it (spec/60_exceptions.md R288). -/
def OpsOk (s : State) : Prop :=
  s.busy = !s.ops.isEmpty ∧ s.ops.tail.all waiting = true

/-- XFER stands between `exchange` and `rx_step`. -/
def exchanged (s : State) : Bool :=
  match s.ops with
  | .xfer .rx :: _ => true
  | _ => false

/-- SELECT is 1 exactly inside a transaction, RESET_OUT exactly inside a reset pulse (R33, R251), and
XCH_IN holds a byte exactly between `exchange` and `rx_step` (R21). -/
def LinesOk (s : State) : Prop :=
  s.line.select = inTransaction s ∧ s.line.resetOut = inPulse s ∧ s.line.xchIn.isSome = exchanged s

/-- The transmit machine: idle outside a transaction (spec/41_transaction.md R184); while it sends,
TXBUF passed the size check (R172) and TXIDX is inside the payload (spec/20_memory.md R76). -/
def TxOk (s : State) : Prop :=
  (inTransaction s = false → s.tx.txs = .idle) ∧
  (s.tx.txs ≠ .idle → badSize s.txbuf.length = false) ∧
  (s.tx.txs = .data → s.tx.txidx.toNat < s.txbuf.length.toNat)

/-- The receive machine: idle outside a transaction (R184); while it receives, RETRY is 0 and RXSEEN
is 1 (spec/40_framer.md R150), RXLONG says whether RXN is at or above CAP once RXN is known (R154),
and RXIDX is below RXN while data is due (R156). -/
def RxOk (s : State) : Prop :=
  (inTransaction s = false → s.rx.rxs = .idle) ∧
  (s.rx.rxs ≠ .idle → s.xf.retry = 0 ∧ s.xf.rxseen = true) ∧
  ((s.rx.rxs = .lenHi ∨ s.rx.rxs = .lenLo) → s.rx.rxlong = false) ∧
  ((s.rx.rxs = .ftype ∨ s.rx.rxs = .data ∨ s.rx.rxs = .cksum) →
    s.rx.rxlong = tooLong s.rx.rxn) ∧
  (s.rx.rxs = .data → s.rx.rxidx.toNat < s.rx.rxn.toNat)

/-- The mode of a transaction: receive-only mode never sends, transmit mode never counts retries
(spec/41_transaction.md R171, R173, R178). -/
def ModeOk (s : State) : Prop :=
  inTransaction s = true →
    (s.xf.rxonly = true → s.tx.txs = .idle) ∧ (s.xf.rxonly = false → s.xf.retry = 0)

/-- The instance obeys spec/00_scope.md R9. -/
def ParamsOk (s : State) : Prop := s.params.legal = true

/-- The invariant of the machine: it holds at reset and every step keeps it. -/
def Invariant (s : State) : Prop :=
  MemoryOk s ∧ RxbufOk s ∧ OpsOk s ∧ LinesOk s ∧ TxOk s ∧ RxOk s ∧ ModeOk s ∧ ParamsOk s

/-- The receive flags of a transaction: RX_SUCCESS, RX_TOO_LONG, BAD_CHECKSUM. -/
def rxFlags : FlagSet := 0x034#9

/-- The flag sets of a receive-only transaction that received a frame (spec/60_exceptions.md R286). -/
def receivedSet (x : FlagSet) : Prop := x = 0x004#9 ∨ x = 0x020#9 ∨ x = 0x010#9 ∨ x = 0x030#9

/-- The flag sets of a transmit-mode transaction: TX_SUCCESS with any receive flags (R286). -/
def sentSet (x : FlagSet) : Prop := x &&& ~~~rxFlags = 0x002#9

/-- XRESULT holds one of the sets R286 lists for XFER in the mode RXONLY names; the empty set is none
of them. -/
def XferResult (s : State) : Prop :=
  s.xf.xresult = 0x001#9 ∨
  (s.xf.rxonly = true ∧ (s.xf.xresult = 0x008#9 ∨ receivedSet s.xf.xresult)) ∨
  (s.xf.rxonly = false ∧ sentSet s.xf.xresult)

/-- XRESULT inside a receive-only transaction at place `p`: empty until a frame is known to be too long
or ends; after that frame the loop is over (spec/41_transaction.md R182 (c)). -/
def ListeningFlags (p : XferPos) (s : State) : Prop :=
  (s.rx.rxs ≠ .idle → s.xf.xresult = if s.rx.rxlong then 0x010#9 else 0) ∧
  (s.rx.rxs = .idle → s.xf.rxseen = false → s.xf.xresult = 0) ∧
  (s.rx.rxs = .idle → s.xf.rxseen = true →
    receivedSet s.xf.xresult ∧ s.xf.retry = 0 ∧ p ≠ .exch ∧ p ≠ .rx)

/-- XRESULT inside a transmit-mode transaction: TX_SUCCESS exactly when the frame has been sent, receive
flags only after the receive machine has left Idle, nothing else. -/
def SendingFlags (s : State) : Prop :=
  s.xf.xresult &&& 0x1C9#9 = 0 ∧
  (s.xf.xresult &&& 0x002#9 ≠ 0 ↔ s.tx.txs = .idle) ∧
  (s.xf.rxseen = false → s.xf.xresult &&& rxFlags = 0)

/-- XRESULT where the innermost activation is XFER at place `p`. -/
def XresultAt (p : XferPos) (s : State) : Prop :=
  match p with
  | .start => True
  | .selDelay | .loop | .exch | .rx | .after _ | .byteDelay =>
    (s.xf.rxonly = true → ListeningFlags p s) ∧ (s.xf.rxonly = false → SendingFlags s)
  | .finish =>
    (s.xf.rxonly = true → s.xf.rxseen = false → s.xf.xresult = 0) ∧
    ((s.xf.rxonly = false ∨ s.xf.rxseen = true) → XferResult s)
  | .raise f => s.xf.xresult = 0 ∧ (f = .sizeError ∨ (f = .noData ∧ s.xf.rxonly = true))
  | .ret => XferResult s

/-- Which flag sets XRESULT can hold (R286): where XFER stands, as `XresultAt` says; outside a
transaction the empty set, before the first one ends or while one is set up, or a set the rule lists. -/
def XresultOk (s : State) : Prop :=
  (∀ p, s.ops.head? = some (.xfer p) → XresultAt p s) ∧
  (inTransaction s = false → s.xf.xresult = 0 ∨ XferResult s)

/-- Host operation `i` is in progress, its innermost activation is `a`, and those of `r` wait. -/
def Running (s : State) (i : Instr) (a : Act) (r : List Act) : Prop :=
  s.busy = true ∧ s.ops = a :: r ∧ current s = some i

/-- The host makes no access in this step: it has nothing to do, it waits for BUSY = 0, or it lets the step
pass. `t` is the state from which the block's own step runs, a `pass` used up (log 13, log 27). -/
def HostQuiet (s t : State) : Prop :=
  (s.world.host = [] ∧ t = s) ∨
  (∃ l, s.world.host = .awaitIdle :: l ∧ t = s) ∨
  (∃ l, s.world.host = .pass :: l ∧ t = { s with world := { s.world with host := l } })

/-- A receive state-step samples `b`, and `t` is the state behind the sample: the byte of XCH_IN, which
is gone then (R21), or a free value where no byte stands there (log 8). -/
def Samples (s : State) (b : Byte) (t : State) : Prop :=
  (s.line.xchIn = some b ∧ t = { s with line := { s.line with xchIn := none } }) ∨
  (s.line.xchIn = none ∧ b = Config.freeByte s.draws 0 ∧ t = { s with draws := s.draws + 1 })

/-- BUSY after the innermost activation has ended: 1 while others wait. -/
def busyAfter (r : List Act) : Bool := !r.isEmpty

/-- The state with the wire taken a byte at a time. -/
def bytewise (s : State) : State := { s with world := { s.world with grain := .byte } }

/-- `n` steps, stopping at the first fault or refusal. -/
def steps : Nat → State → Out
  | 0, s => .next s
  | n + 1, s => andThen (step s) (steps n)

/-- A safe step: no fault. -/
def SafeStep (s : State) : Prop := ∀ r, step s ≠ .fault r

end Sys2Proof.Machine
end

