-- ==== Sys2Proof/Certificates/Slice0/Obligations.lean ====
section
/-! DEFINITION. The statements for the provers. Rules are those of spec/; `Running s i a r` says that host
operation `i` is in progress and stands at `a`. -/

open Sys2Proof Sys2Proof.Machine

/-! ## Encodings -/

/-- Decoding the code of a well-formed instruction gives it back, for all 44 rows and all operands
(spec/30_encoding.md sections 1, 2, 4; the codes of TXS and RXS: 10_state.md section 3). The layouts of
the request word, the state codes and the flag bits are the spec's own decisions D11, D12, D13. -/
def Obligations.DecodeEncodeRoundTrip : Prop :=
  ∀ i : Instr, i.wf = true → decode (encode i) = .ok i

/-- A frame decoded from the front of a byte stream is well formed and accounts for every byte up to
the rest (30_encoding.md section 1: how a decoder finds the end of a frame). -/
def Obligations.DecodedFrameAccountsForEveryByte : Prop :=
  ∀ (bs rest : List Byte) (i : Instr), decodeFrame bs = .ok (i, rest) →
    i.wf = true ∧ ∃ enc, encode i = .wire enc ∧ bs = enc ++ rest

/-- Bits 3:0 of a request word name the operation, bits 31:24, 23:16, 15:8 and 4 are c0, c1, plen and
st, and every field an operation does not use is ignored (30_encoding.md section 2; the layout is the
spec's decision D12). -/
def Obligations.RequestWordNamesOperationByLowBits : Prop :=
  ∀ (c0 c1 plen : Byte) (junk : BitVec 3) (st : Power),
    let w (op : BitVec 4) : ReqWord := c0 ++ c1 ++ plen ++ junk ++ powerBit st ++ op
    decodeRequest (w 0x1) = .xfer ∧
    decodeRequest (w 0x2) = .sendCommand c0 c1 plen ∧
    decodeRequest (w 0x3) = .receiveResponse ∧
    decodeRequest (w 0x4) = .doCommand c0 c1 plen ∧
    decodeRequest (w 0x5) = .setPower st ∧
    decodeRequest (w 0x6) = .waitPower st ∧
    decodeRequest (w 0x7) = .waitAttn ∧
    decodeRequest (w 0x8) = .resetPulse ∧
    decodeRequest (w 0x9) = .configure ∧
    decodeRequest (w 0x0) = .reserved0 ∧
    decodeRequest (w 0xA) = .reservedA ∧
    decodeRequest (w 0xB) = .reservedB ∧
    decodeRequest (w 0xC) = .reservedC ∧
    decodeRequest (w 0xD) = .reservedD ∧
    decodeRequest (w 0xE) = .reservedE ∧
    decodeRequest (w 0xF) = .reservedF

/-- Words written out from the spec decode to what they stand for: request words and frames of
95_test_vectors.md (P1 to P5, F1, F2, F3, F8, F11), state codes (10_state.md section 3), flag codes
(60_exceptions.md section 1). The layouts of request word, state codes and flag bits are the spec's
decisions D12, D13, D11; the type codes 0x10, 0x88, 0x8A and 0x90 are presumed (log 6), and that a frame of
a named type decodes to that type's row is the model's choice (log 28). What is no code is rejected by
name: TXS has seven codes, RXS six, a flag's code has one bit (the model's convention, log 8 and log 10), a
frame starts with the delimiter. -/
def Obligations.SpecWordsDecode : Prop :=
  decode (.request 0x56520002#32) = .ok (.sendCommand 0x56#8 0x52#8 0#8) ∧
  decode (.request 0x44360104#32) = .ok (.doCommand 0x44#8 0x36#8 1#8) ∧
  decode (.request 0x00000015#32) = .ok (.setPower .wake) ∧
  decode (.request 0x00000006#32) = .ok (.waitPower .sleep) ∧
  decode (.request 0x00000009#32) = .ok .configure ∧
  decode (.wire [0x7E, 0x00, 0x04, 0x08, 0x55, 0x56, 0x52, 0xFA]) =
    .ok (.frameAtCommand 4 [0x55, 0x56, 0x52] 0xFA) ∧
  decode (.wire [0x7E, 0x00, 0x02, 0x10, 0x00, 0xEF]) = .ok (.frameTxRequest 2 [0x00] 0xEF) ∧
  decode (.wire [0x7E, 0x00, 0x04, 0x90, 0xFF, 0xFF, 0x72, 0xFF]) =
    .ok (.frameRxIndication 4 [0xFF, 0xFF, 0x72] 0xFF) ∧
  decode (.wire [0x7E, 0x00, 0x02, 0x8A, 0x00, 0x75]) = .ok (.frameModemStatus 2 [0x00] 0x75) ∧
  decode (.wire [0x7E, 0x00, 0x05, 0x88, 0x55, 0x56, 0x52, 0x02, 0x78]) =
    .ok (.frameAtResponse 5 [0x55, 0x56, 0x52, 0x02] 0x78) ∧
  decode (.wire [0x7E, 0x00, 0x02, 0x01, 0xFF, 0xFF]) = .ok (.frameGeneric 2 0x01 [0xFF] 0xFF) ∧
  decode (.txState 5) = .ok .stepTxData ∧ decode (.rxState 5) = .ok .stepRxCksum ∧
  decode (.flag 0x080) = .ok .flagCmdRejected ∧
  decode (.txState 7) = .error .noSuchTxState ∧
  decode (.rxState 6) = .error .noSuchRxState ∧ decode (.rxState 7) = .error .noSuchRxState ∧
  (∀ c : FlagSet, (∀ f, c ≠ flagCode f) → decode (.flag c) = .error .notOneFlag) ∧
  (∀ (b : Byte) (bs : List Byte), b ≠ 0x7E#8 → decode (.wire (b :: bs)) = .error .noDelimiter)

/-! ## What a step runs -/

/-- With BUSY = 0 and a request word at the host port, the step runs the instruction the word decodes
to, and the request is taken (60_exceptions.md section 5, host port). -/
def Obligations.StepRunsRequestedInstruction : Prop :=
  ∀ (s : State) (w : ReqWord) (i : Instr) (r : List HostAct),
    s.busy = false → s.world.host = .request w :: r → decode (.request w) = .ok i →
    step s = exec i { s with world := { s.world with host := r } }

/-- With BUSY = 1 and a host that makes no access, having nothing to do, waiting for BUSY = 0 or letting
the step pass (log 13, log 27), the step runs what OPS stands at: the state-step of TXS at the loop test of
a transaction that goes on, the state-step of RXS behind `exchange`, the flag at a `raise` line, the
operation in progress elsewhere (00_scope.md section 2: what stands in for a program counter; log 7). So
the host's actions behind `n` passes find the block `n` steps further on. -/
def Obligations.StepRunsInstructionInProgress : Prop :=
  ∀ (s t : State) (i : Instr) (r : List Act),
    s.busy = true → HostQuiet s t → s.world.grain = .byte →
    (s.ops = .xfer .loop :: r → loopCond s = true →
      decode (.txState (txStateCode s.tx.txs)) = .ok i → step s = exec i t) ∧
    (s.ops = .xfer .rx :: r →
      decode (.rxState (rxStateCode s.rx.rxs)) = .ok i → step s = exec i t) ∧
    (∀ f, s.ops = .xfer (.raise f) :: r → decode (.flag (flagCode f)) = .ok i → step s = exec i t) ∧
    (s.ops ≠ .xfer .rx :: r → (∀ f, s.ops ≠ .xfer (.raise f) :: r) →
      (s.ops ≠ .xfer .loop :: r ∨ loopCond s = false) → s.ops.tail = r → current s = some i →
      step s = exec i t)

/-- When the wire is taken a frame at a time, and the host makes no access, the step runs the frame at its
front and leaves the bytes behind it (30_encoding.md section 1; the model's convention, log 9). -/
def Obligations.StepRunsFrameOnTheWire : Prop :=
  ∀ (s t : State) (i : Instr) (r : List Act) (bytes rest : List Byte),
    s.busy = true → HostQuiet s t → s.world.grain = .frame →
    s.ops = .xfer .loop :: r → loopCond s = true →
    s.world.inbound = bytes ++ rest → decode (.wire bytes) = .ok i →
    step s = exec i { t with world := { t.world with inbound := rest } }

/-- A block without a step: an idle block with no host action pending does nothing
(70_reset_and_hazards.md section 1), nor does one that the host lets a step pass by (the action is used up,
log 13), and a block whose `exchange`, `delay` or line read never returns stays at that call
(60_exceptions.md section 5; that a number in State says how many calls are still answered is the model's,
log 21). -/
def Obligations.IdleOrHungBlockDoesNothing : Prop :=
  (∀ s : State, s.busy = false →
    (s.world.host = [] → step s = .next s) ∧
    (∀ l, s.world.host = .pass :: l →
      step s = .next { s with world := { s.world with host := l } })) ∧
  (∀ (s : State) (i : Instr) (a : Act) (r : List Act), Running s i a r →
    s.world.answers = some 0 →
    (a = .xfer .selDelay ∨ a = .xfer .exch ∨ a = .xfer .byteDelay ∨ a = .pulse .hold ∨
      (∃ st n, a = .waitPower st n ∧ s.params.pollLimit ≠ some n) ∨
      (∃ n, a = .waitAttn n ∧ s.params.pollLimit ≠ some n)) →
    exec i s = .next s)

/-- R330: a request made while BUSY = 1 is refused, whatever the word. -/
def Obligations.RequestWhileBusyRefused : Prop :=
  ∀ (s : State) (w : ReqWord) (r : List HostAct),
    s.busy = true → s.world.host = .request w :: r → step s = .refused .requestWhileBusy

/-- Host accesses (10_state.md section 8, 20_memory.md section 1; decisions D1, D27): refused while
BUSY = 1, refused outside the 67 image bytes, else the write changes TXBUF's image and the read returns
image bytes. BUSY, SEQ_ATTEMPTS, CONFIGURED and the lines SELECT, PWR_REQ, RESET_OUT are readable at any
time, XRESULT, RESULT, SEND_RESULT and CMD_STATUS while BUSY = 0; a read returns the register and changes
nothing else. An access of no bytes falls under the same bounds by the model's choice (log 30). That a
read is a host action which leaves its value, widened to 16 bits, in State is the
model's (log 13). -/
def Obligations.HostAccessRules : Prop :=
  ∀ (s : State) (a n : Nat) (bytes : List Byte) (b : Buf) (q : HostReg) (r : List HostAct),
    (s.world.host = .write a bytes :: r → s.busy = true → step s = .refused .hostAccessWhileBusy) ∧
    (s.world.host = .read b a n :: r → s.busy = true → step s = .refused .hostAccessWhileBusy) ∧
    (anyTime q = true ↔ q = .busy ∨ q = .seqAttempts ∨ q = .configured ∨ q = .select ∨
      q = .pwrReq ∨ q = .resetOut) ∧
    (s.world.host = .readReg q :: r → s.busy = true → anyTime q = false →
      step s = .refused .hostAccessWhileBusy) ∧
    (s.world.host = .readReg q :: r → (s.busy = false ∨ anyTime q = true) →
      step s = .next { s with world :=
        { s.world with host := r, hostWord := readHostReg q s } }) ∧
    readHostReg .xresult s = s.xf.xresult.setWidth 16 ∧
    readHostReg .result s = s.res.result.setWidth 16 ∧
    readHostReg .sendResult s = s.res.sendResult.setWidth 16 ∧
    readHostReg .cmdStatus s = s.res.cmdStatus.setWidth 16 ∧
    readHostReg .busy s = (if s.busy then 1 else 0) ∧
    readHostReg .seqAttempts s = s.seq.seqAttempts ∧
    readHostReg .configured s = (if s.seq.configured then 1 else 0) ∧
    readHostReg .select s = (if s.line.select then 1 else 0) ∧
    readHostReg .pwrReq s = (if s.line.pwrReq = .wake then 1 else 0) ∧
    readHostReg .resetOut s = (if s.line.resetOut then 1 else 0) ∧
    (s.world.host = .write a bytes :: r → s.busy = false → 67 < a + bytes.length →
      step s = .refused .noSuchImageAddress) ∧
    (s.world.host = .read b a n :: r → s.busy = false → 67 < a + n →
      step s = .refused .noSuchImageAddress) ∧
    (s.world.host = .write a bytes :: r → s.busy = false → a + bytes.length ≤ 67 →
      step s = .next { s with
        txbuf := memWrite s.txbuf a bytes, world := { s.world with host := r } }) ∧
    (s.world.host = .read b a n :: r → s.busy = false → a + n ≤ 67 →
      step s = .next { s with world :=
        { s.world with host := r, hostBytes := memRead (bufOf b s) a n } }) ∧
    (s.world.host = .awaitIdle :: r → s.busy = false →
      step s = .next { s with world := { s.world with host := r } })

/-- Image bytes written by the host read back, bytes outside the write keep their value, and bytes 0, 1
and 2 are length low, length high and frame type (20_memory.md section 1; image layout: decision D1). -/
def Obligations.ImageReadsBackWhatWasWritten : Prop :=
  ∀ (b : FrameBuffer) (a : Nat) (bytes : List Byte),
    memRead (memWrite b a bytes) a bytes.length = bytes ∧
    (∀ i, (i < a ∨ a + bytes.length ≤ i) → imageByte (memWrite b a bytes) i = imageByte b i) ∧
    (∀ lo hi ty : Byte, memRead b 0 3 = [lo, hi, ty] ↔ b.length = hi ++ lo ∧ b.frameType = ty) ∧
    (∀ i, imageByte b (3 + i) = b.byte i)

/-- Block reset, whatever is in progress: the registers take their reset values, no closing event is
made, the instance's constants stay (70_reset_and_hazards.md section 1, decision D26; what stays of the
world is the model's choice, log 20; the values 0 of the registers the spec leaves open are the
model's, log 3 and log 8, and are not stated here). -/
def Obligations.BlockResetAbandonsOperation : Prop :=
  ∀ (s : State) (r : List HostAct), s.world.host = .reset :: r →
    ∃ t, step s = .next t ∧
      t.txbuf.length = 0 ∧ t.txbuf.frameType = 0 ∧ t.rxbuf.length = 0 ∧ t.rxbuf.frameType = 0 ∧
      t.tx.txs = .idle ∧ t.rx.rxs = .idle ∧
      t.xf.retry = 0 ∧ t.xf.rxseen = false ∧ t.xf.rxonly = false ∧ t.xf.xresult = 0 ∧
      t.res.result = 0 ∧ t.res.sendResult = 0 ∧
      t.line.select = false ∧ t.line.pwrReq = .wake ∧ t.line.resetOut = false ∧
      t.seq.seqs = .idle ∧ t.seq.seqIdx = 0 ∧ t.seq.seqAttempts = 0 ∧ t.seq.configured = false ∧
      t.busy = false ∧ t.ops = [] ∧ t.params = s.params ∧
      t.world = { s.world with host := r }

/-- What reset leaves (10_state.md section 9): the values the spec gives, its decisions D20, D25, D26,
D28 among them; the payload bytes are free values (log 2). POLL_LIMIT is none, the default 00_scope.md
section 4 gives that parameter (decision D21; where the model keeps it is log 5). -/
def Obligations.ResetLeavesTheBlockIdle : Prop :=
  let s := State.reset
  s.txbuf.length = 0 ∧ s.txbuf.frameType = 0 ∧ s.rxbuf.length = 0 ∧ s.rxbuf.frameType = 0 ∧
  (∀ i, s.txbuf.byte i = Config.freeByte s.txbuf.fill i) ∧
  (∀ i, s.rxbuf.byte i = Config.freeByte s.rxbuf.fill i) ∧
  s.tx.txs = .idle ∧ s.rx.rxs = .idle ∧
  s.xf.retry = 0 ∧ s.xf.rxseen = false ∧ s.xf.rxonly = false ∧ s.xf.xresult = 0 ∧
  s.res.result = 0 ∧ s.res.sendResult = 0 ∧
  s.line.select = false ∧ s.line.pwrReq = .wake ∧ s.line.resetOut = false ∧
  s.seq.seqs = .idle ∧ s.seq.seqIdx = 0 ∧ s.seq.seqAttempts = 0 ∧ s.seq.configured = false ∧
  s.busy = false ∧ s.params.pollLimit = none

/-! ## Transmit state-steps -/

/-- R131: in TX_IDLE the step returns FILL and changes nothing else. -/
def Obligations.TxIdleReturnsFill : Prop :=
  ∀ s : State, s.tx.txs = .idle →
    exec .stepTxIdle s =
      .next { s with line := { s.line with xchOut := 0x00#8 }, ops := (leaveTx s).ops }

/-- R132, R133, R134: the delimiter, W[15:8] and W[7:0] with W = length + 1; TXS goes on; the sum is not
touched; nothing else changes. -/
def Obligations.TxHeaderAndLengthBytes : Prop :=
  ∀ s : State,
    (s.tx.txs = .header → exec .stepTxHeader s =
      .next { s with
        line := { s.line with xchOut := 0x7E#8 }
        tx := { s.tx with txs := .lenHi }
        ops := (leaveTx s).ops }) ∧
    (s.tx.txs = .lenHi → exec .stepTxLenHi s =
      .next { s with
        line := { s.line with xchOut := (s.txbuf.length + 1).extractLsb' 8 8 }
        tx := { s.tx with txs := .lenLo }
        ops := (leaveTx s).ops }) ∧
    (s.tx.txs = .lenLo → exec .stepTxLenLo s =
      .next { s with
        line := { s.line with xchOut := (s.txbuf.length + 1).extractLsb' 0 8 }
        tx := { s.tx with txs := .ftype }
        ops := (leaveTx s).ops })

/-- R135: the type byte is returned and starts the sum; TXIDX is 0; data follows when length > 0. -/
def Obligations.TxTypeStartsSum : Prop :=
  ∀ s : State, s.tx.txs = .ftype →
    exec .stepTxType s =
      .next { s with
        line := { s.line with xchOut := s.txbuf.frameType }
        tx := { txsum := s.txbuf.frameType, txidx := 0
                txs := if 0 < s.txbuf.length.toNat then .data else .cksum }
        ops := (leaveTx s).ops }

/-- The transmit Data step (40_framer.md section 1): the payload byte at TXIDX is returned and enters
the sum modulo 256, TXIDX counts up, and the checksum follows when TXIDX reaches the length. A byte
nothing has written is a free value (decision D26, log 2). A TXIDX at or above 64 does not happen
(20_memory.md section 4); that the model then faults, in states no run reaches, is its own choice (log 23). -/
def Obligations.TxDataSendsPayloadByte : Prop :=
  ∀ s : State, s.tx.txs = .data →
    (s.tx.txidx.toNat < 64 → exec .stepTxData s =
      .next { s with
        line := { s.line with xchOut := s.txbuf.byte s.tx.txidx.toNat }
        tx := { txsum := s.tx.txsum + s.txbuf.byte s.tx.txidx.toNat
                txidx := s.tx.txidx + 1
                txs := if s.tx.txidx + 1 = s.txbuf.length then .cksum else .data }
        ops := (leaveTx s).ops }) ∧
    (64 ≤ s.tx.txidx.toNat → exec .stepTxData s = .fault .payloadIndexOutOfRange)

/-- The transmit Checksum step (40_framer.md section 1): 0xFF − TXSUM is returned, TXS is idle, and
TX_SUCCESS is set in XRESULT in this very step (decision D10). That TXIDX and TXSUM, unspecified from here
on, keep their values is the model's choice (log 29). -/
def Obligations.TxChecksumEndsFrame : Prop :=
  ∀ s : State, s.tx.txs = .cksum →
    exec .stepTxCksum s =
      .next { s with
        line := { s.line with xchOut := 0xFF#8 - s.tx.txsum }
        tx := { s.tx with txs := .idle }
        xf := { s.xf with xresult := s.xf.xresult ||| 0x002#9 }
        ops := (leaveTx s).ops }

/-- A state-step outside the state it fires in is refused (the model's choice, log 8; 00_scope.md
section 5 gives a state-step its effect in the state it fires in). A receive state-step with no byte on
XCH_IN, outside an exchange step, runs as on a free byte (the model's choice, log 8). -/
def Obligations.StateStepsFireOnlyInTheirState : Prop :=
  ∀ (s : State) (a : TxState) (b : RxState),
    (s.tx.txs ≠ a → exec (txInstr a) s = .refused .stateStepNotEnabled) ∧
    (s.rx.rxs ≠ b → exec (rxInstr b) s = .refused .stateStepNotEnabled) ∧
    (s.line.xchIn = none → exec (rxInstr s.rx.rxs) s = exec (rxInstr s.rx.rxs) { s with
      line := { s.line with xchIn := some (Config.freeByte s.draws 0) }, draws := s.draws + 1 })

/-! ## Receive state-steps

A receive state-step samples the byte of XCH_IN, which is not latched beyond it (10_state.md section 1).
`Samples s b u`: it samples `b`, and `u` is `s` behind the sample; with no byte there `b` is a free value
(the model's choice, log 8). -/

/-- R150: in RX_IDLE the delimiter goes to RX_LEN_HI, sets RXSEEN, zeroes RETRY and clears RXLONG; any
other byte is lost and nothing is written. Either way the byte is no longer on XCH_IN. -/
def Obligations.RxIdleWaitsForDelimiter : Prop :=
  ∀ (s : State) (b : Byte), s.rx.rxs = .idle → s.line.xchIn = some b →
    (b = 0x7E#8 → exec .stepRxIdle s =
      .next { s with
        rx := { s.rx with rxs := .lenHi, rxlong := false }
        xf := { s.xf with rxseen := true, retry := 0 }
        line := { s.line with xchIn := none }
        ops := (leaveRx true s).ops }) ∧
    (b ≠ 0x7E#8 → exec .stepRxIdle s =
      .next { s with line := { s.line with xchIn := none }, ops := (leaveRx true s).ops })

/-- R151, R155: the high length byte enters RXW[15:8] whatever its value; the type byte is staged and
starts the sum, RXIDX is 0, and data follows when RXN > 0. Either way the byte is no longer on XCH_IN. -/
def Obligations.RxHighLengthAndTypeBytes : Prop :=
  ∀ (s : State) (b : Byte), s.line.xchIn = some b →
    (s.rx.rxs = .lenHi → exec .stepRxLenHi s =
      .next { s with
        rx := { s.rx with rxw := b ++ (s.rx.rxw.extractLsb' 0 8 : Byte), rxs := .lenLo }
        line := { s.line with xchIn := none }
        ops := (leaveRx false s).ops }) ∧
    (s.rx.rxs = .ftype → exec .stepRxType s =
      .next { s with
        rxa := { s.rxa with frameType := b }
        rx := { s.rx with
          rxsum := b, rxidx := 0
          rxs := if 0 < s.rx.rxn.toNat then .data else .cksum }
        line := { s.line with xchIn := none }
        ops := (leaveRx false s).ops })

/-- The receive LengthLow step (40_framer.md section 2): RXW[7:0], RXN = RXW − 1 (0 for RXW = 0,
decision D6), and for RXN ≥ 64 RXLONG and RX_TOO_LONG (decision D5). -/
def Obligations.RxLowLengthByteFixesCount : Prop :=
  ∀ (s u : State) (b : Byte), s.rx.rxs = .lenLo → Samples s b u →
    let w : Half := (s.rx.rxw.extractLsb' 8 8 : Byte) ++ b
    (w.toNat - 1 < 64 → exec .stepRxLenLo s =
      .next { u with
        rx := { s.rx with rxw := w, rxn := BitVec.ofNat 16 (w.toNat - 1), rxs := .ftype }
        ops := (leaveRx false s).ops }) ∧
    (64 ≤ w.toNat - 1 → exec .stepRxLenLo s =
      .next { u with
        rx := { s.rx with
          rxw := w, rxn := BitVec.ofNat 16 (w.toNat - 1), rxs := .ftype, rxlong := true }
        xf := { s.xf with xresult := s.xf.xresult ||| 0x010#9 }
        ops := (leaveRx false s).ops })

/-- The receive Data step (40_framer.md section 2): the byte is staged at RXIDX when RXIDX < 64 and
dropped otherwise, enters the sum either way (decision D7), RXIDX counts up, and the checksum follows
when RXIDX reaches RXN. -/
def Obligations.RxDataStagesAndSums : Prop :=
  ∀ (s u : State) (b : Byte), s.rx.rxs = .data → Samples s b u →
    ∃ t, exec .stepRxData s = .next t ∧
      t = { u with
        rxa := t.rxa
        rx := { s.rx with
          rxsum := s.rx.rxsum + b, rxidx := s.rx.rxidx + 1
          rxs := if s.rx.rxidx + 1 = s.rx.rxn then .cksum else .data }
        ops := (leaveRx false s).ops } ∧
      t.rxa.frameType = s.rxa.frameType ∧
      (s.rx.rxidx.toNat < 64 → t.rxa.byte s.rx.rxidx.toNat = b) ∧
      (∀ i, (i ≠ s.rx.rxidx.toNat ∨ 64 ≤ s.rx.rxidx.toNat) → t.rxa.byte i = s.rxa.byte i)

/-- The receive Checksum step (40_framer.md section 2; decisions D7, D29): on a match RXBUF takes RXN,
the type and the staged bytes, its other bytes become free values of their own, and RX_SUCCESS is set;
a too-long frame ends silently; a mismatch sets BAD_CHECKSUM and leaves RXBUF alone. That RXA and the
counters, unspecified from here on (60_exceptions.md section 1), keep their values is the model's choice
(log 29). -/
def Obligations.RxChecksumCommitsOrRejects : Prop :=
  ∀ (s u : State) (b : Byte), s.rx.rxs = .cksum → Samples s b u →
    (b = 0xFF#8 - s.rx.rxsum → s.rx.rxlong = false →
      ∃ t, exec .stepRxCksum s = .next t ∧
        t = { u with
          rxbuf := t.rxbuf
          rx := { s.rx with rxs := .idle }
          xf := { s.xf with xresult := s.xf.xresult ||| 0x004#9 }
          draws := u.draws + 1
          ops := (leaveRx false s).ops } ∧
        t.rxbuf.length = s.rx.rxn ∧ t.rxbuf.frameType = s.rxa.frameType ∧
        (∀ i, i < s.rx.rxn.toNat → t.rxbuf.byte i = s.rxa.byte i) ∧
        (∀ i, s.rx.rxn.toNat ≤ i → t.rxbuf.byte i = Config.freeByte u.draws i)) ∧
    (b = 0xFF#8 - s.rx.rxsum → s.rx.rxlong = true → exec .stepRxCksum s =
      .next { u with rx := { s.rx with rxs := .idle }, ops := (leaveRx false s).ops }) ∧
    (b ≠ 0xFF#8 - s.rx.rxsum → exec .stepRxCksum s =
      .next { u with
        rx := { s.rx with rxs := .idle }
        xf := { s.xf with xresult := s.xf.xresult ||| 0x020#9 }
        ops := (leaveRx false s).ops })

/-! ## Flags -/

/-- Raising a flag sets its one bit in the accumulator in use, XRESULT for the six flags a transaction
raises and RESULT for the other three, and changes nothing else but XFER's position at a `raise` line
(60_exceptions.md section 1; bit positions: decision D11; the accumulator by flag is the model's
reading, log 10). -/
def Obligations.RaisingAFlagSetsOneBit : Prop :=
  ∀ s : State,
    let inX (f : Flag) (c : FlagSet) : Out :=
      .next { s with xf := { s.xf with xresult := s.xf.xresult ||| c }, ops := (leaveRaise f s).ops }
    let inR (f : Flag) (c : FlagSet) : Out :=
      .next { s with res := { s.res with result := s.res.result ||| c }, ops := (leaveRaise f s).ops }
    exec .flagSizeError s = inX .sizeError 0x001#9 ∧
    exec .flagTxSuccess s = inX .txSuccess 0x002#9 ∧
    exec .flagRxSuccess s = inX .rxSuccess 0x004#9 ∧
    exec .flagNoData s = inX .noData 0x008#9 ∧
    exec .flagRxTooLong s = inX .rxTooLong 0x010#9 ∧
    exec .flagBadChecksum s = inX .badChecksum 0x020#9 ∧
    exec .flagWrongFrame s = inR .wrongFrame 0x040#9 ∧
    exec .flagCmdRejected s = inR .cmdRejected 0x080#9 ∧
    exec .flagPollTimeout s = inR .pollTimeout 0x100#9

/-! ## XFER -/

/-- With BUSY = 0 each of the nine operations is accepted: BUSY is 1, OPS holds the operation with its
operands, and the first micro-step of its pseudocode is made at once (10_state.md section 6,
60_exceptions.md section 5; the micro-step is the model's grain, log 7). The next states of SEND_COMMAND,
RECEIVE_RESPONSE, DO_COMMAND, RESET_PULSE and CONFIGURE are written out, SEND_COMMAND's with the TXBUF whose
bytes SendCommandFillsTxbufAndKeepsResult gives; XFER goes on as TransactionStart says, SET_POWER and the
waits as their own statements say. -/
def Obligations.AcceptedOperationStarts : Prop :=
  ∀ (s : State) (c0 c1 plen : Byte) (st : Power), s.busy = false →
    let at_ (a : Act) : State := { s with busy := true, ops := [a] }
    exec .xfer s = exec .xfer (at_ (.xfer .start)) ∧
    exec (.waitPower st) s = exec (.waitPower st) (at_ (.waitPower st 0)) ∧
    exec .waitAttn s = exec .waitAttn (at_ (.waitAttn 0)) ∧
    exec (.setPower st) s = exec (.setPower st) (at_ (.setPower st)) ∧
    exec (.sendCommand c0 c1 plen) s = exec (.sendCommand c0 c1 plen) (at_ (.send c0 c1 plen .start)) ∧
    exec (.sendCommand c0 c1 plen) s =
      .next { s with
        busy := true
        ops := [.xfer .start, .send c0 c1 plen .sent]
        txbuf := writeCommand s.params.cmdFrameId c0 c1 plen s.txbuf } ∧
    exec .receiveResponse s =
      .next { s with busy := true, ops := [.waitAttn 0, .recv .waited] } ∧
    exec (.doCommand c0 c1 plen) s =
      .next { s with
        busy := true
        ops := [.send c0 c1 plen .start, .doCmd c0 c1 plen .sent] } ∧
    exec .resetPulse s =
      .next { s with
        busy := true
        ops := [.pulse .hold]
        line := { s.line with resetOut := true }
        world := { s.world with events := .resetAssert :: s.world.events } } ∧
    exec .configure s =
      .next { s with
        busy := true
        ops := [.configure .attempt]
        seq := { s.seq with seqAttempts := 0, configured := false } }

/-- The reserved codes are not accepted: refused, in BUSY = 0 as reserved, in BUSY = 1 as requests
while busy (30_encoding.md section 2; codes and refusal: decision D12). -/
def Obligations.ReservedCodesRefused : Prop :=
  ∀ (s : State) (i : Instr),
    (i = .reserved0 ∨ i = .reservedA ∨ i = .reservedB ∨ i = .reservedC ∨ i = .reservedD ∨
      i = .reservedE ∨ i = .reservedF) →
    (s.busy = false → exec i s = .refused .reservedOperation) ∧
    (s.busy = true → exec i s = .refused .requestWhileBusy)

/-- The size check (41_transaction.md section 2): in transmit mode a length of 0 or of 64 and more ends
XFER with {SIZE_ERROR}, with no event and no register written but XRESULT, RESULT, BUSY and OPS; every other
length starts the transaction. That the end comes after three steps counts the model's own micro-steps
(log 7); the spec counts events only. -/
def Obligations.XferSizeCheck : Prop :=
  ∀ (s : State) (w : ReqWord), s.busy = false → s.txbuf.frameType ≠ 0x00#8 →
    s.world.host = [.request w] → decode (.request w) = .ok .xfer →
    ((s.txbuf.length.toNat = 0 ∨ 64 ≤ s.txbuf.length.toNat) →
      exec .xfer s = .next { s with
        busy := true
        ops := [.xfer (.raise .sizeError)]
        xf := { s.xf with xresult := 0 } } ∧
      steps 3 s = .next { s with
        busy := false
        ops := []
        xf := { s.xf with xresult := 0x001#9 }
        res := { s.res with result := 0x001#9 }
        world := { s.world with host := [] } }) ∧
    (0 < s.txbuf.length.toNat → s.txbuf.length.toNat < 64 →
      ∃ t, exec .xfer s = .next t ∧ t.line.select = true ∧ t.tx.txs = .header ∧ t.busy = true)

/-- The start of a transaction (41_transaction.md sections 2 and 3; decisions D4, D30): the type alone
chooses the mode, XRESULT is cleared, the registers are loaded, `select(1)` is called; nothing else
changes. `s` stands at XFER's start, as the host's operation or inside another. Registers the spec leaves
unspecified outside a frame keep their values here by the model's choice (log 29). -/
def Obligations.TransactionStart : Prop :=
  ∀ (s : State) (i : Instr) (r : List Act), Running s i (.xfer .start) r →
    (s.txbuf.frameType ≠ 0x00#8 → 0 < s.txbuf.length.toNat → s.txbuf.length.toNat < 64 →
      exec i s = .next { s with
        tx := { s.tx with txs := .header }
        rx := { s.rx with rxs := .idle }
        xf := { retry := 0, rxseen := false, rxonly := false, xresult := 0 }
        line := { s.line with select := true }
        world := { s.world with events := .select true :: s.world.events }
        ops := .xfer .selDelay :: r }) ∧
    (s.txbuf.frameType ≠ 0x00#8 → (s.txbuf.length.toNat = 0 ∨ 64 ≤ s.txbuf.length.toNat) →
      exec i s = .next { s with
        xf := { s.xf with xresult := 0 }
        ops := .xfer (.raise .sizeError) :: r }) ∧
    (s.txbuf.frameType = 0x00#8 →
      exec i s = .next { s with
        tx := { s.tx with txs := .idle }
        rx := { s.rx with rxs := .idle }
        xf := { retry := s.params.retryBudget, rxseen := false, rxonly := true, xresult := 0 }
        line := { s.line with select := true }
        world := { s.world with events := .select true :: s.world.events }
        ops := .xfer .selDelay :: r })

/-- The loop test (41_transaction.md section 4): with both machines idle and RETRY = 0 the engine calls
`select(0)` and leaves the loop; otherwise the transmit state-step of TXS runs. The delay after
`select(1)` has no effect but its event (decisions D24, D30). -/
def Obligations.LoopTestAndDelays : Prop :=
  ∀ (s : State) (i : Instr) (r : List Act),
    (Running s i (.xfer .selDelay) r → s.world.answers ≠ some 0 → exec i s = .next { s with
      world := { s.world with
        events := .delay s.params.tSelectUs :: s.world.events
        answers := s.world.answers.map (· - 1) }
      ops := .xfer .loop :: r }) ∧
    (Running s i (.xfer .loop) r →
      (leaveTx s).ops = .xfer .exch :: r ∧
      (s.tx.txs = .idle → s.rx.rxs = .idle → s.xf.retry = 0 → exec i s = .next { s with
        line := { s.line with select := false }
        world := { s.world with events := .select false :: s.world.events }
        ops := .xfer .finish :: r }) ∧
      ((s.tx.txs ≠ .idle ∨ s.rx.rxs ≠ .idle ∨ 0 < s.xf.retry) →
        exec i s = exec (txInstr s.tx.txs) s))

/-- The exchange and what follows it (41_transaction.md section 4, 60_exceptions.md section 5): XCH_OUT is
sent and the byte the module supplies is taken to XCH_IN, one event; with nothing scheduled the byte is
a free value (log 1). The receive state-step of RXS runs. RETRY counts down by 1, not below 0, exactly
when RXS was idle before that step and is idle after it; then the byte delay is called, which has no
effect but its event (decision D24). The places are the model's grain (log 7). -/
def Obligations.ExchangeThenRetryUpdate : Prop :=
  ∀ (s : State) (i : Instr) (r : List Act),
    (Running s i (.xfer .exch) r → s.world.answers ≠ some 0 →
      (∀ b bs, s.world.inbound = b :: bs → exec i s = .next { s with
        line := { s.line with xchIn := some b }
        world := { s.world with
          inbound := bs
          events := .exchange s.line.xchOut b :: s.world.events
          answers := s.world.answers.map (· - 1) }
        ops := .xfer .rx :: r }) ∧
      (s.world.inbound = [] → ∃ b, exec i s = .next { s with
        line := { s.line with xchIn := some b }
        world := { s.world with
          events := .exchange s.line.xchOut b :: s.world.events
          answers := s.world.answers.map (· - 1) }
        ops := .xfer .rx :: r
        draws := s.draws + 1 })) ∧
    (Running s i (.xfer .rx) r →
      exec i s = exec (rxInstr s.rx.rxs) s ∧
      (leaveRx (decide (s.rx.rxs = .idle)) s).ops =
        .xfer (.after (decide (s.rx.rxs = .idle))) :: r) ∧
    (∀ w, Running s i (.xfer (.after w)) r → exec i s = .next { s with
      xf := { s.xf with
        retry := if w = true ∧ s.rx.rxs = .idle then s.xf.retry - 1 else s.xf.retry }
      ops := .xfer .byteDelay :: r }) ∧
    (Running s i (.xfer .byteDelay) r → s.world.answers ≠ some 0 → exec i s = .next { s with
      world := { s.world with
        events := .delay s.params.tByteUs :: s.world.events
        answers := s.world.answers.map (· - 1) }
      ops := .xfer .loop :: r })

/-- The end of a transaction (41_transaction.md section 4, decision D18): NO_DATA is due exactly
when the mode was receive-only and the receive machine never left Idle; then RESULT takes XRESULT, and
BUSY falls when XFER was the host's operation. -/
def Obligations.TransactionEnd : Prop :=
  ∀ (s : State) (i : Instr) (r : List Act),
    let return_ : Out := .next { s with
      res := { s.res with result := s.xf.xresult }, busy := busyAfter r, ops := r }
    (Running s i (.xfer .finish) r →
      (s.xf.rxonly = true → s.xf.rxseen = false →
        exec i s = .next { s with ops := .xfer (.raise .noData) :: r }) ∧
      ((s.xf.rxonly = false ∨ s.xf.rxseen = true) → exec i s = return_)) ∧
    (∀ f, Running s i (.xfer (.raise f)) r →
      exec i s = exec (flagInstr f) s ∧ (leaveRaise f s).ops = .xfer .ret :: r) ∧
    (Running s i (.xfer .ret) r → exec i s = return_)

/-! ## Whole transactions -/

/-- Taking the wire a frame at a time changes nothing but the grain (the grain is the model's, log 9): with
no host action pending, whatever a step does, one or more steps of the same machine with the wire taken a
byte at a time do. -/
def Obligations.FrameStepRefinesByteSteps : Prop :=
  ∀ s t : State, s.world.host = [] → step s = .next t →
    ∃ k, 0 < k ∧ steps k (bytewise s) = .next (bytewise t)

/-- A transmit-mode transaction with no delimiter among the first L + 5 inbound bytes (41_transaction.md
section 5, 30_encoding.md section 1): when it ends, exactly the frame of TXBUF has been sent and as many
bytes taken, RESULT is {TX_SUCCESS}, RXBUF and TXBUF are unchanged, SELECT is 0 and BUSY is 0. That it
ends 5·(L + 5) + 4 steps after the request counts the model's own micro-steps (log 7); the spec counts the
L + 5 exchanges. That RXA keeps its value is the model's choice (log 29). -/
def Obligations.SilentTransmissionSendsTheFrame : Prop :=
  ∀ (s : State) (w : ReqWord) (bs rest : List Byte), s.busy = false →
    s.world.host = [.request w] → decode (.request w) = .ok .xfer → s.world.grain = .byte →
    s.world.answers = none →
    s.txbuf.frameType ≠ 0x00#8 → 0 < s.txbuf.length.toNat → s.txbuf.length.toNat < 64 →
    s.world.inbound = bs ++ rest → bs.length = s.txbuf.length.toNat + 5 → 0x7E#8 ∉ bs →
    ∃ t, steps (5 * (s.txbuf.length.toNat + 5) + 4) s = .next t ∧
      outStream t.world.events = outStream s.world.events ++ frameOf s.txbuf ∧
      inStream t.world.events = inStream s.world.events ++ bs ∧ t.world.inbound = rest ∧
      t.res = { s.res with result := 0x002#9 } ∧ t.xf.xresult = 0x002#9 ∧
      t.rxbuf = s.rxbuf ∧ t.txbuf = s.txbuf ∧ t.rxa = s.rxa ∧ t.seq = s.seq ∧
      t.tx.txs = .idle ∧ t.rx.rxs = .idle ∧ t.line.select = false ∧
      t.line.pwrReq = s.line.pwrReq ∧ t.line.resetOut = s.line.resetOut ∧
      t.busy = false ∧ t.params = s.params

/-- A receive-only transaction with no delimiter among the first RETRY_BUDGET inbound bytes
(41_transaction.md section 5): exactly RETRY_BUDGET exchanges, each sending FILL, RESULT is {NO_DATA},
the buffers are unchanged. RETRY_BUDGET may be 0. That it ends 5·RETRY_BUDGET + 6 steps after the request
counts the model's own micro-steps (log 7); the spec counts the exchanges. That RXA keeps its value is
the model's choice (log 29). -/
def Obligations.ReceiveOnlyWithoutDelimiterReportsNoData : Prop :=
  ∀ (s : State) (w : ReqWord) (bs rest : List Byte), s.busy = false →
    s.world.host = [.request w] → decode (.request w) = .ok .xfer → s.world.grain = .byte →
    s.world.answers = none → s.txbuf.frameType = 0x00#8 →
    s.world.inbound = bs ++ rest → bs.length = s.params.retryBudget → 0x7E#8 ∉ bs →
    ∃ t, steps (5 * s.params.retryBudget + 6) s = .next t ∧
      outStream t.world.events =
        outStream s.world.events ++ List.replicate s.params.retryBudget 0x00#8 ∧
      inStream t.world.events = inStream s.world.events ++ bs ∧ t.world.inbound = rest ∧
      t.res = { s.res with result := 0x008#9 } ∧ t.xf.xresult = 0x008#9 ∧
      t.rxbuf = s.rxbuf ∧ t.txbuf = s.txbuf ∧ t.rxa = s.rxa ∧ t.seq = s.seq ∧
      t.line.select = false ∧ t.line.pwrReq = s.line.pwrReq ∧
      t.line.resetOut = s.line.resetOut ∧ t.busy = false ∧ t.params = s.params

/-- Every transaction ends, provided every call is answered (41_transaction.md section 5): within
max(L + 5, RETRY) + 65539 exchange steps the loop test fails, from every state of the invariant that
stands at it. -/
def Obligations.EveryTransactionEnds : Prop :=
  ∀ s : State, Invariant s → atLoop s = true → s.world.answers = none →
    ∃ t, exchangeRounds (max (s.txbuf.length.toNat + 5) s.xf.retry + 65539) s = .next t ∧
      atLoop t = true ∧ loopCond t = false

/-! ## Frames received -/

/-- A good frame of any of the six frame rows, in a transaction of either mode whose receive machine is
idle (40_framer.md section 2, 41_transaction.md section 5; a frame row as an instruction is the model's
reading, log 9): the block makes one exchange step a byte, RXBUF holds the frame, RX_SUCCESS is set and
of the other flags at most TX_SUCCESS, RETRY is 0, and in receive-only mode the loop is over and every
outbound byte was FILL. -/
def Obligations.GoodFrameIsReceived : Prop :=
  ∀ (s : State) (i : Instr) (r : List Act) (w : Half) (ty ck : Byte) (payload : List Byte),
    encode i = .wire (frameBytes w ty payload ck) → i.wf = true →
    s.busy = true → s.ops = .xfer .loop :: r → loopCond s = true → s.rx.rxs = .idle →
    (s.tx.txs ≠ .idle → badSize s.txbuf.length = false) →
    (s.tx.txs = .data → s.tx.txidx.toNat < s.txbuf.length.toNat) →
    s.world.answers = none → payload.length < 64 → ck = 0xFF#8 - byteSum ty payload →
    ∃ t, exec i s = .next t ∧
      t.rxbuf.length.toNat = payload.length ∧ t.rxbuf.frameType = ty ∧
      (∀ (j : Nat) (h : j < payload.length), t.rxbuf.byte j = payload[j]) ∧
      t.rx.rxs = .idle ∧ t.xf.retry = 0 ∧ t.xf.rxseen = true ∧ t.xf.rxonly = s.xf.rxonly ∧
      (t.xf.xresult = s.xf.xresult ||| 0x004#9 ∨ t.xf.xresult = s.xf.xresult ||| 0x006#9) ∧
      inStream t.world.events = inStream s.world.events ++ frameBytes w ty payload ck ∧
      (s.tx.txs = .idle → loopCond t = false ∧ t.xf.xresult = s.xf.xresult ||| 0x004#9 ∧
        outStream t.world.events =
          outStream s.world.events ++ List.replicate (payload.length + 5) 0x00#8) ∧
      t.txbuf = s.txbuf ∧ t.res = s.res ∧ t.seq = s.seq ∧ t.ops = s.ops ∧ t.busy = s.busy ∧
      t.params = s.params ∧ t.line.select = s.line.select ∧ t.line.pwrReq = s.line.pwrReq ∧
      t.line.resetOut = s.line.resetOut ∧
      t.world = { s.world with events := t.world.events }

/-- A frame with a wrong checksum byte, or one too long for RXBUF (40_framer.md sections 2 and 4;
decisions D5, D7; a frame row as an instruction is the model's reading, log 9): it is taken off the wire
whole, RXBUF keeps every field, RX_TOO_LONG is set exactly for 64 and more data bytes, BAD_CHECKSUM exactly
for a wrong checksum, and RX_SUCCESS is not. -/
def Obligations.BadOrLongFrameIsNotCommitted : Prop :=
  ∀ (s : State) (i : Instr) (r : List Act) (w : Half) (ty ck : Byte) (payload : List Byte),
    encode i = .wire (frameBytes w ty payload ck) → i.wf = true →
    s.busy = true → s.ops = .xfer .loop :: r → loopCond s = true → s.rx.rxs = .idle →
    (s.tx.txs ≠ .idle → badSize s.txbuf.length = false) →
    (s.tx.txs = .data → s.tx.txidx.toNat < s.txbuf.length.toNat) →
    s.world.answers = none → (64 ≤ payload.length ∨ ck ≠ 0xFF#8 - byteSum ty payload) →
    ∃ t, exec i s = .next t ∧ t.rxbuf = s.rxbuf ∧ t.draws = s.draws ∧
      t.rx.rxs = .idle ∧ t.xf.retry = 0 ∧ t.xf.rxseen = true ∧
      (let x : FlagSet := s.xf.xresult ||| (if 64 ≤ payload.length then 0x010#9 else 0) |||
          (if ck = 0xFF#8 - byteSum ty payload then 0 else 0x020#9)
       (s.tx.txs = .idle → t.xf.xresult = x ∧ loopCond t = false) ∧
       (t.xf.xresult = x ∨ t.xf.xresult = x ||| 0x002#9)) ∧
      inStream t.world.events = inStream s.world.events ++ frameBytes w ty payload ck ∧
      t.txbuf = s.txbuf ∧ t.res = s.res ∧ t.seq = s.seq ∧ t.ops = s.ops ∧ t.busy = s.busy ∧
      t.params = s.params ∧ t.line.select = s.line.select ∧ t.line.pwrReq = s.line.pwrReq ∧
      t.line.resetOut = s.line.resetOut ∧
      t.world = { s.world with events := t.world.events }

/-- With no transaction at its loop test, or at a loop test that ends the loop, no exchange happens
(60_exceptions.md section 5, 41_transaction.md section 4): the frame stays with the module, first in line,
and nothing of the block changes (a frame row as an instruction is the model's reading, log 9). -/
def Obligations.FrameWaitsOutsideATransaction : Prop :=
  ∀ (s : State) (i : Instr) (bytes : List Byte), encode i = .wire bytes →
    (atLoop s && loopCond s) = false →
    exec i s = .next { s with world := { s.world with inbound := bytes ++ s.world.inbound } }

/-- The round-trip law (40_framer.md section 4): the L + 5 bytes the transmit machine returns from
TX_HEADER are the frame of TXBUF, and a receive machine fed them from RX_IDLE commits that very frame
with RX_SUCCESS and no other receive flag. -/
def Obligations.RoundTripLaw : Prop :=
  ∀ s v : State, s.tx.txs = .header → 0 < s.txbuf.length.toNat → s.txbuf.length.toNat < 64 →
    v.rx.rxs = .idle →
    (∃ u, txRun (s.txbuf.length.toNat + 5) s [] = some (frameOf s.txbuf, u) ∧
      u.tx.txs = .idle ∧ u.xf.xresult = s.xf.xresult ||| 0x002#9) ∧
    (let t := rxFeed (frameOf s.txbuf) v
     t.rx.rxs = .idle ∧ t.xf.xresult = v.xf.xresult ||| 0x004#9 ∧
     t.rxbuf.length = s.txbuf.length ∧ t.rxbuf.frameType = s.txbuf.frameType ∧
     ∀ i, i < s.txbuf.length.toNat → t.rxbuf.byte i = s.txbuf.byte i)

/-- The corruption law (40_framer.md section 4): one byte of a frame at wire positions 3 to 3 + L
changed to another value makes the receive machine report BAD_CHECKSUM and not RX_SUCCESS, and RXBUF
is unchanged. -/
def Obligations.OneChangedByteIsBadChecksum : Prop :=
  ∀ (b : FrameBuffer) (v : State) (k : Nat) (c : Byte),
    0 < b.length.toNat → b.length.toNat < 64 → v.rx.rxs = .idle →
    3 ≤ k → k ≤ 3 + b.length.toNat → (frameOf b)[k]? ≠ some c →
    let t := rxFeed ((frameOf b).set k c) v
    t.rx.rxs = .idle ∧ t.xf.xresult = v.xf.xresult ||| 0x020#9 ∧ t.rxbuf = v.rxbuf

/-! ## The command layer -/

/-- SEND_COMMAND (42_command.md section 1; the frame id is the instance's constant, decision D16). Its
first micro-step gives TXBUF type 0x08, the frame id and the two characters, length 3 + plen, every
other payload byte as the caller left it, and XFER runs next; nothing else changes. Behind XFER the
transaction's flags go to SEND_RESULT and RESULT. -/
def Obligations.SendCommandFillsTxbufAndKeepsResult : Prop :=
  ∀ (s : State) (i : Instr) (c0 c1 plen : Byte) (r : List Act),
    (Running s i (.send c0 c1 plen .start) r →
      ∃ t, exec i s = .next t ∧
        t = { s with txbuf := t.txbuf, ops := .xfer .start :: .send c0 c1 plen .sent :: r } ∧
        t.txbuf.frameType = 0x08#8 ∧ t.txbuf.length.toNat = 3 + plen.toNat ∧
        t.txbuf.byte 0 = s.params.cmdFrameId ∧ t.txbuf.byte 1 = c0 ∧ t.txbuf.byte 2 = c1 ∧
        ∀ j, 3 ≤ j → t.txbuf.byte j = s.txbuf.byte j) ∧
    (Running s i (.send c0 c1 plen .sent) r → exec i s = .next { s with
      res := { s.res with result := s.xf.xresult, sendResult := s.xf.xresult }
      busy := busyAfter r
      ops := r })

/-- RECEIVE_RESPONSE (42_command.md section 2): it waits for attention, gives up with {POLL_TIMEOUT} when
the wait did, and otherwise asks for receive-only mode by type FT_NONE and length 0 (decision D19), its
payload untouched, and runs XFER, whose flags it returns. -/
def Obligations.ReceiveResponseWaitsThenReceives : Prop :=
  ∀ (s : State) (i : Instr) (r : List Act),
    (Running s i (.recv .start) r →
      exec i s = .next { s with ops := .waitAttn 0 :: .recv .waited :: r }) ∧
    (Running s i (.recv .waited) r →
      (s.res.result &&& 0x100#9 ≠ 0 → exec i s = .next { s with
        res := { s.res with result := 0x100#9 }, busy := busyAfter r, ops := r }) ∧
      (s.res.result &&& 0x100#9 = 0 → exec i s = .next { s with
        txbuf := { s.txbuf with frameType := 0x00#8, length := 0 }
        ops := .xfer .start :: .recv .received :: r })) ∧
    (Running s i (.recv .received) r → exec i s = .next { s with
      res := { s.res with result := s.xf.xresult }, busy := busyAfter r, ops := r })

/-- DO_COMMAND up to check (a) (42_command.md section 3; the early return is the spec's own, decision D18,
log 25): SEND_COMMAND runs first; without TX_SUCCESS its
flags are the result and nothing is received; with it RECEIVE_RESPONSE runs. -/
def Obligations.DoCommandSendsFirst : Prop :=
  ∀ (s : State) (i : Instr) (c0 c1 plen : Byte) (r : List Act),
    (Running s i (.doCmd c0 c1 plen .start) r → exec i s = .next { s with
      ops := .send c0 c1 plen .start :: .doCmd c0 c1 plen .sent :: r }) ∧
    (Running s i (.doCmd c0 c1 plen .sent) r →
      (s.res.sendResult &&& 0x002#9 = 0 → exec i s = .next { s with
        res := { s.res with result := s.res.sendResult }, busy := busyAfter r, ops := r }) ∧
      (s.res.sendResult &&& 0x002#9 ≠ 0 → exec i s = .next { s with
        ops := .recv .start :: .doCmd c0 c1 plen .received :: r }))

/-- Checks (b), (c) and (d) of DO_COMMAND, in order (42_command.md section 3; decisions D17, D18; the
response's type code and status offset are presumed, log 6): no reply, wrong or too short a frame,
command rejected with its status latched, command accepted. -/
def Obligations.DoCommandChecksTheResponse : Prop :=
  ∀ (s : State) (i : Instr) (c0 c1 plen : Byte) (r : List Act),
    Running s i (.doCmd c0 c1 plen .received) r →
    let verdict (x : FlagSet) (status : Byte) : Out := .next { s with
      res := { s.res with result := x, cmdStatus := status }, busy := busyAfter r, ops := r }
    let response : Prop := s.rxbuf.frameType = 0x88#8 ∧ 3 < s.rxbuf.length.toNat
    (s.res.result &&& 0x004#9 = 0 →
      exec i s = verdict (s.res.result ||| 0x002#9) s.res.cmdStatus) ∧
    (s.res.result &&& 0x004#9 ≠ 0 → ¬ response →
      exec i s = verdict (s.res.result ||| 0x042#9) s.res.cmdStatus) ∧
    (s.res.result &&& 0x004#9 ≠ 0 → response → s.rxbuf.byte 3 ≠ 0x00#8 →
      exec i s = verdict (s.res.result ||| 0x082#9) (s.rxbuf.byte 3)) ∧
    (s.res.result &&& 0x004#9 ≠ 0 → response → s.rxbuf.byte 3 = 0x00#8 →
      exec i s = verdict (s.res.result ||| 0x002#9) 0x00#8)

/-! ## Power, attention, reset pulse -/

/-- R230: SET_POWER drives the request line with its operand, returns the empty set, and completes at
once; nothing else changes. -/
def Obligations.SetPowerDrivesTheLine : Prop :=
  ∀ (s : State) (st : Power), s.busy = false →
    exec (.setPower st) s = .next { s with
      line := { s.line with pwrReq := st }
      res := { s.res with result := 0 }
      world := { s.world with events := .setRequestLine st :: s.world.events }
      busy := false
      ops := [] }

/-- R231: a step changes PWR_REQ only when it runs SET_POWER, to the operand's value, or when the block
is reset. -/
def Obligations.PowerRequestWrittenOnlyBySetPower : Prop :=
  ∀ s t : State, step s = .next t →
    t.line.pwrReq = s.line.pwrReq ∨
    (∃ st, s.ops.head? = some (.setPower st) ∧ s.busy = true ∧ t.line.pwrReq = st) ∨
    (∃ w st r, s.world.host = .request w :: r ∧ s.busy = false ∧
      decodeRequest w = .setPower st ∧ t.line.pwrReq = st) ∨
    (∃ r, s.world.host = .reset :: r)

/-- One round of WAIT_POWER (43_power.md section 2; the limit is decision D21; that the wait ends on its
operand, not on PWR_REQ, is decision D35, log 25; one round a step is the model's grain, log 7; the count
kept without a limit too is log 26): after POLL_LIMIT samples it gives up with {POLL_TIMEOUT} and takes no
further sample; otherwise it samples the status line once and ends with the empty set when the sample is
the operand, and waits on when not. With no level scheduled the sample is a free value (log 1). -/
def Obligations.WaitPowerPollsUntilTheOperand : Prop :=
  ∀ (s : State) (i : Instr) (st : Power) (n : Nat) (r : List Act),
    Running s i (.waitPower st n) r →
    let ended (e : List Event) (l : List Power) (d : Nat) : Out := .next { s with
      res := { s.res with result := 0 }
      world := { s.world with statusIn := l, events := e, answers := s.world.answers.map (· - 1) }
      busy := busyAfter r
      ops := r
      draws := d }
    let again (e : List Event) (l : List Power) (d : Nat) : Out := .next { s with
      world := { s.world with statusIn := l, events := e, answers := s.world.answers.map (· - 1) }
      ops := .waitPower st (n + 1) :: r
      draws := d }
    (s.params.pollLimit = some n → exec i s = .next { s with
      res := { s.res with result := 0x100#9 }, busy := busyAfter r, ops := r }) ∧
    (s.params.pollLimit ≠ some n → s.world.answers ≠ some 0 →
      (∀ p l, s.world.statusIn = p :: l →
        (p = st → exec i s = ended (.readStatus p :: s.world.events) l s.draws) ∧
        (p ≠ st → exec i s = again (.readStatus p :: s.world.events) l s.draws)) ∧
      (s.world.statusIn = [] → ∃ p,
        (p = st → exec i s = ended (.readStatus p :: s.world.events) [] (s.draws + 1)) ∧
        (p ≠ st → exec i s = again (.readStatus p :: s.world.events) [] (s.draws + 1))))

/-- One round of WAIT_ATTN (43_power.md section 3; the limit is decision D21; one round a step is the
model's grain, log 7; the count kept without a limit too is log 26): as WAIT_POWER, on the attention line,
until a sample is 1. -/
def Obligations.WaitAttnPollsUntilAsserted : Prop :=
  ∀ (s : State) (i : Instr) (n : Nat) (r : List Act), Running s i (.waitAttn n) r →
    let ended (e : List Event) (l : List Bool) (d : Nat) : Out := .next { s with
      res := { s.res with result := 0 }
      world := { s.world with attnIn := l, events := e, answers := s.world.answers.map (· - 1) }
      busy := busyAfter r
      ops := r
      draws := d }
    let again (e : List Event) (l : List Bool) (d : Nat) : Out := .next { s with
      world := { s.world with attnIn := l, events := e, answers := s.world.answers.map (· - 1) }
      ops := .waitAttn (n + 1) :: r
      draws := d }
    (s.params.pollLimit = some n → exec i s = .next { s with
      res := { s.res with result := 0x100#9 }, busy := busyAfter r, ops := r }) ∧
    (s.params.pollLimit ≠ some n → s.world.answers ≠ some 0 →
      (∀ a l, s.world.attnIn = a :: l →
        (a = true → exec i s = ended (.readAttn a :: s.world.events) l s.draws) ∧
        (a = false → exec i s = again (.readAttn a :: s.world.events) l s.draws)) ∧
      (s.world.attnIn = [] → ∃ a,
        (a = true → exec i s = ended (.readAttn a :: s.world.events) [] (s.draws + 1)) ∧
        (a = false → exec i s = again (.readAttn a :: s.world.events) [] (s.draws + 1))))

/-- A wait without a limit never passes by itself (43_power.md sections 2 and 3; that WAIT_POWER waits for
its operand is decision D35, log 25): as many samples as are scheduled, none of them the operand of
WAIT_POWER, or none of them 1 for WAIT_ATTN, leave it waiting, BUSY = 1, one poll each, while the host does
nothing or lets that many steps pass; a host action `h` behind them, a block reset say, is then next
(70_reset_and_hazards.md section 3). One poll a step is the model's grain (log 7), and the count of
samples kept in OPS without a limit is the model's too (log 26). -/
def Obligations.UnmatchedWaitStaysBusy : Prop :=
  (∀ (s : State) (i : Instr) (st : Power) (n : Nat) (r : List Act) (l rest : List Power)
    (h : List HostAct),
    Running s i (.waitPower st n) r → s.params.pollLimit = none → s.world.answers = none →
    ((s.world.host = [] ∧ h = []) ∨ s.world.host = List.replicate l.length .pass ++ h) →
    s.world.statusIn = l ++ rest → st ∉ l →
    steps l.length s = .next { s with
      world := { s.world with
        host := h, statusIn := rest, events := (l.map Event.readStatus).reverse ++ s.world.events }
      ops := .waitPower st (n + l.length) :: r }) ∧
  (∀ (s : State) (i : Instr) (n : Nat) (r : List Act) (l rest : List Bool)
    (h : List HostAct),
    Running s i (.waitAttn n) r → s.params.pollLimit = none → s.world.answers = none →
    ((s.world.host = [] ∧ h = []) ∨ s.world.host = List.replicate l.length .pass ++ h) →
    s.world.attnIn = l ++ rest → true ∉ l →
    steps l.length s = .next { s with
      world := { s.world with
        host := h, attnIn := rest, events := (l.map Event.readAttn).reverse ++ s.world.events }
      ops := .waitAttn (n + l.length) :: r })

/-- RESET_PULSE (44_sequencer.md section 1) is three events, `reset_assert`, the delay, `reset_deassert`,
then the empty set in RESULT; no other register changes. That it takes three steps as the host's
operation, one an event, counts the model's own micro-steps (log 7). -/
def Obligations.ResetPulseMakesThreeEvents : Prop :=
  (∀ (s : State) (i : Instr) (r : List Act),
    (Running s i (.pulse .start) r → exec i s = .next { s with
      line := { s.line with resetOut := true }
      world := { s.world with events := .resetAssert :: s.world.events }
      ops := .pulse .hold :: r }) ∧
    (Running s i (.pulse .hold) r → s.world.answers ≠ some 0 → exec i s = .next { s with
      world := { s.world with
        events := .delay s.params.tResetUs :: s.world.events
        answers := s.world.answers.map (· - 1) }
      ops := .pulse .release :: r }) ∧
    (Running s i (.pulse .release) r → exec i s = .next { s with
      line := { s.line with resetOut := false }
      res := { s.res with result := 0 }
      world := { s.world with events := .resetDeassert :: s.world.events }
      busy := busyAfter r
      ops := r })) ∧
  (∀ (s : State) (w : ReqWord), s.busy = false → s.world.host = [.request w] →
    s.world.answers = none → decode (.request w) = .ok .resetPulse →
    steps 3 s = .next { s with
      line := { s.line with resetOut := false }
      res := { s.res with result := 0 }
      world := { s.world with
        host := []
        events := .resetDeassert :: .delay s.params.tResetUs :: .resetAssert :: s.world.events }
      busy := false
      ops := [] })

/-! ## The configuration sequencer -/

/-- CONFIGURE up to the harvest (44_sequencer.md section 2; SEQ_ATTEMPTS saturates at 65535, decision
D25; the harvest is a RECEIVE_RESPONSE, decision D22): the observers are cleared once; every attempt
counts, pulses the module's reset, and then receives. -/
def Obligations.ConfigureAttempt : Prop :=
  ∀ (s : State) (i : Instr) (r : List Act),
    (Running s i (.configure .start) r → exec i s = .next { s with
      seq := { s.seq with seqAttempts := 0, configured := false }
      ops := .configure .attempt :: r }) ∧
    (Running s i (.configure .attempt) r → exec i s = .next { s with
      seq := { s.seq with
        seqs := .reset
        seqAttempts := BitVec.ofNat 16 (min (s.seq.seqAttempts.toNat + 1) 65535) }
      ops := .pulse .start :: .configure .pulsed :: r }) ∧
    (Running s i (.configure .pulsed) r → exec i s = .next { s with
      seq := { s.seq with seqs := .harvest }
      ops := .recv .start :: .configure .harvested :: r })

/-- CONFIGURE's two gates (44_sequencer.md section 2; type code, offset and status code of the modem
status are presumed, log 6). After the harvest only a received modem status, long enough, with status
MS_HW_RESET goes on to the first command; everything else restarts with a full reset and issues no
command. A command answered with anything but {TX_SUCCESS, RX_SUCCESS} restarts likewise; an accepted
one goes to the next entry, and after the third CONFIGURE ends with CONFIGURED = 1. -/
def Obligations.ConfigureGates : Prop :=
  ∀ (s : State) (i : Instr) (r : List Act),
    (Running s i (.configure .harvested) r →
      let good : Prop := s.res.result &&& 0x004#9 ≠ 0 ∧ s.rxbuf.frameType = 0x8A#8 ∧
        0 < s.rxbuf.length.toNat ∧ s.rxbuf.byte 0 = 0x00#8
      (good → exec i s = .next { s with
        seq := { s.seq with seqs := .command, seqIdx := 0 }
        ops := .configure .command :: r }) ∧
      (¬ good → exec i s = .next { s with ops := .configure .attempt :: r })) ∧
    (Running s i (.configure .commanded) r →
      (s.res.result ≠ 0x006#9 → exec i s = .next { s with ops := .configure .attempt :: r }) ∧
      (s.res.result = 0x006#9 → s.seq.seqIdx = 0 → exec i s = .next { s with
        seq := { s.seq with seqIdx := 1 }, ops := .configure .command :: r }) ∧
      (s.res.result = 0x006#9 → s.seq.seqIdx = 1 → exec i s = .next { s with
        seq := { s.seq with seqIdx := 2 }, ops := .configure .command :: r }) ∧
      (s.res.result = 0x006#9 → s.seq.seqIdx = 2 → exec i s = .next { s with
        seq := { s.seq with seqs := .done, configured := true }
        busy := busyAfter r
        ops := r }))

/-- CONFIGURE issues a command (44_sequencer.md section 2, decision D23): the entry's parameter bytes go
to TXBUF.payload[3] onward, every other byte and the header stay, and DO_COMMAND runs with the entry's
characters and the number of its parameters. An entry beyond the bound of 00_scope.md section 4 is a
fault (log 23). -/
def Obligations.ConfigureIssuesTheEntry : Prop :=
  ∀ (s : State) (i : Instr) (r : List Act), Running s i (.configure .command) r →
    let e := s.params.configSeq[s.seq.seqIdx]
    (e.params.length ≤ 60 →
      ∃ t, exec i s = .next t ∧
        t = { s with
          txbuf := { s.txbuf with payload := t.txbuf.payload }
          ops := .doCmd e.c0 e.c1 (BitVec.ofNat 8 e.params.length) .start ::
            .configure .commanded :: r } ∧
        (∀ (j : Nat) (h : j < e.params.length), t.txbuf.byte (3 + j) = e.params[j]) ∧
        (∀ j, (j < 3 ∨ 3 + e.params.length ≤ j) → t.txbuf.byte j = s.txbuf.byte j)) ∧
    (60 < e.params.length → exec i s = .fault .configEntryTooLong)

/-! ## Rules of the whole machine -/

/-- The invariant holds at reset. -/
def Obligations.ResetMeetsInvariant : Prop := Invariant State.reset ∧ XresultOk State.reset

/-- Every step keeps the invariant: canonical memories, RXBUF's length below CAP, SELECT exactly inside a
transaction, RESET_OUT exactly inside a pulse, a byte on XCH_IN exactly between `exchange` and the
state-step that samples it, both machines idle outside a transaction, the receive machine's counters
(10_state.md sections 1 to 5, 41_transaction.md section 5). -/
def Obligations.EveryStepKeepsInvariant : Prop :=
  ∀ s t : State, Invariant s → step s = .next t → Invariant t

/-- Under the invariant no step faults: the transmitter never reads outside the payload array
(20_memory.md section 4) and no entry of CONFIG_SEQ is too long. -/
def Obligations.NoStepFaultsUnderInvariant : Prop :=
  ∀ s : State, Invariant s → SafeStep s

/-- Every step keeps XRESULT within the sets 60_exceptions.md section 1 lists as reachable for XFER in
its mode, the empty set and the partial sets of a transaction in progress aside; and the step in which
XFER returns, when it is no block reset, leaves one of the listed sets, never the empty one, in XRESULT
and in RESULT: {SIZE_ERROR}; receive-only {NO_DATA}, {RX_SUCCESS}, {BAD_CHECKSUM}, {RX_TOO_LONG} or
{RX_TOO_LONG, BAD_CHECKSUM}; in transmit mode TX_SUCCESS with any of the three receive flags. -/
def Obligations.EveryStepKeepsXresultReachable : Prop :=
  ∀ s t : State, Invariant s → XresultOk s → step s = .next t →
    XresultOk t ∧
    (∀ (p : XferPos) (r : List Act), s.ops = .xfer p :: r → t.ops = r →
      (∀ l, s.world.host ≠ .reset :: l) → XferResult t ∧ t.res.result = t.xf.xresult)

/-- Only a commit writes RXBUF (10_state.md section 2, decision D2): a step leaves every field of it
alone unless it is a receive Checksum step with the right checksum and RXLONG = 0, a step that takes a
whole frame from the wire, in which such a Checksum step can lie, or a block reset. That the wire can be
taken a frame at a time is the model's choice (log 9); FrameStepRefinesByteSteps says that such a step does
what steps of the other kind do. -/
def Obligations.RxbufWrittenOnlyByCommit : Prop :=
  ∀ s t : State, step s = .next t →
    t.rxbuf = s.rxbuf ∨
    (s.busy = true ∧ s.ops.head? = some (.xfer .rx) ∧ s.rx.rxs = .cksum ∧
      (∃ u, Samples s (0xFF#8 - s.rx.rxsum) u) ∧ s.rx.rxlong = false ∧
      t.rxbuf.length = s.rx.rxn) ∨
    (s.busy = true ∧ s.world.grain = .frame ∧ s.ops.head? = some (.xfer .loop) ∧
      loopCond s = true ∧ ∃ i rest, decodeFrame s.world.inbound = .ok (i, rest)) ∨
    (∃ r, s.world.host = .reset :: r)

/-- Inside a transaction nothing writes TXBUF, PWR_REQ, RESET_OUT, RESULT, SEND_RESULT, CMD_STATUS, the
sequencer's registers or the instance's constants, and XRESULT only gains bits; only a block reset does
otherwise (10_state.md section 4, 20_memory.md section 6, 41_transaction.md section 5, 43_power.md section 1). -/
def Obligations.TransactionLeavesTheRestAlone : Prop :=
  ∀ s t : State, inTransaction s = true → step s = .next t →
    (t.txbuf = s.txbuf ∧ t.res = s.res ∧ t.seq = s.seq ∧ t.params = s.params ∧
      t.line.pwrReq = s.line.pwrReq ∧ t.line.resetOut = s.line.resetOut ∧
      s.xf.xresult &&& t.xf.xresult = s.xf.xresult) ∨
    (∃ r, s.world.host = .reset :: r)
end

