-- ==== Sys2Proof/Laws/State.lean ====
section
/-! SUPPORT. One lemma per field and update of the state: what each named update makes of each field. A
lemma about an unchanged field needs the update's definition only once, here. -/

namespace Sys2Proof.Machine

open Sys2Proof

variable (s : State)

/-! ### emit -/

@[simp] theorem emit_txbuf (e : Event) : (emit e s).txbuf = s.txbuf := rfl
@[simp] theorem emit_rxbuf (e : Event) : (emit e s).rxbuf = s.rxbuf := rfl
@[simp] theorem emit_tx (e : Event) : (emit e s).tx = s.tx := rfl
@[simp] theorem emit_rx (e : Event) : (emit e s).rx = s.rx := rfl
@[simp] theorem emit_rxa (e : Event) : (emit e s).rxa = s.rxa := rfl
@[simp] theorem emit_xf (e : Event) : (emit e s).xf = s.xf := rfl
@[simp] theorem emit_line (e : Event) : (emit e s).line = s.line := rfl
@[simp] theorem emit_res (e : Event) : (emit e s).res = s.res := rfl
@[simp] theorem emit_seq (e : Event) : (emit e s).seq = s.seq := rfl
@[simp] theorem emit_busy (e : Event) : (emit e s).busy = s.busy := rfl
@[simp] theorem emit_ops (e : Event) : (emit e s).ops = s.ops := rfl
@[simp] theorem emit_params (e : Event) : (emit e s).params = s.params := rfl
@[simp] theorem emit_world (e : Event) :
    (emit e s).world =
      { s.world with events := e :: s.world.events } := rfl
@[simp] theorem emit_draws (e : Event) : (emit e s).draws = s.draws := rfl

/-! ### goto -/

@[simp] theorem goto_txbuf (a : Act) : (goto a s).txbuf = s.txbuf := rfl
@[simp] theorem goto_rxbuf (a : Act) : (goto a s).rxbuf = s.rxbuf := rfl
@[simp] theorem goto_tx (a : Act) : (goto a s).tx = s.tx := rfl
@[simp] theorem goto_rx (a : Act) : (goto a s).rx = s.rx := rfl
@[simp] theorem goto_rxa (a : Act) : (goto a s).rxa = s.rxa := rfl
@[simp] theorem goto_xf (a : Act) : (goto a s).xf = s.xf := rfl
@[simp] theorem goto_line (a : Act) : (goto a s).line = s.line := rfl
@[simp] theorem goto_res (a : Act) : (goto a s).res = s.res := rfl
@[simp] theorem goto_seq (a : Act) : (goto a s).seq = s.seq := rfl
@[simp] theorem goto_busy (a : Act) : (goto a s).busy = s.busy := rfl
@[simp] theorem goto_ops (a : Act) : (goto a s).ops = a :: s.ops.tail := rfl
@[simp] theorem goto_params (a : Act) : (goto a s).params = s.params := rfl
@[simp] theorem goto_world (a : Act) : (goto a s).world = s.world := rfl
@[simp] theorem goto_draws (a : Act) : (goto a s).draws = s.draws := rfl

/-! ### call -/

@[simp] theorem call_txbuf (a b : Act) : (call a b s).txbuf = s.txbuf := rfl
@[simp] theorem call_rxbuf (a b : Act) : (call a b s).rxbuf = s.rxbuf := rfl
@[simp] theorem call_tx (a b : Act) : (call a b s).tx = s.tx := rfl
@[simp] theorem call_rx (a b : Act) : (call a b s).rx = s.rx := rfl
@[simp] theorem call_rxa (a b : Act) : (call a b s).rxa = s.rxa := rfl
@[simp] theorem call_xf (a b : Act) : (call a b s).xf = s.xf := rfl
@[simp] theorem call_line (a b : Act) : (call a b s).line = s.line := rfl
@[simp] theorem call_res (a b : Act) : (call a b s).res = s.res := rfl
@[simp] theorem call_seq (a b : Act) : (call a b s).seq = s.seq := rfl
@[simp] theorem call_busy (a b : Act) : (call a b s).busy = s.busy := rfl
@[simp] theorem call_ops (a b : Act) : (call a b s).ops = a :: b :: s.ops.tail := rfl
@[simp] theorem call_params (a b : Act) : (call a b s).params = s.params := rfl
@[simp] theorem call_world (a b : Act) : (call a b s).world = s.world := rfl
@[simp] theorem call_draws (a b : Act) : (call a b s).draws = s.draws := rfl

/-! ### finish -/

@[simp] theorem finish_txbuf : (finish s).txbuf = s.txbuf := rfl
@[simp] theorem finish_rxbuf : (finish s).rxbuf = s.rxbuf := rfl
@[simp] theorem finish_tx : (finish s).tx = s.tx := rfl
@[simp] theorem finish_rx : (finish s).rx = s.rx := rfl
@[simp] theorem finish_rxa : (finish s).rxa = s.rxa := rfl
@[simp] theorem finish_xf : (finish s).xf = s.xf := rfl
@[simp] theorem finish_line : (finish s).line = s.line := rfl
@[simp] theorem finish_res : (finish s).res = s.res := rfl
@[simp] theorem finish_seq : (finish s).seq = s.seq := rfl
@[simp] theorem finish_busy : (finish s).busy = if s.ops.tail = [] then false else s.busy := rfl
@[simp] theorem finish_ops : (finish s).ops = s.ops.tail := rfl
@[simp] theorem finish_params : (finish s).params = s.params := rfl
@[simp] theorem finish_world : (finish s).world = s.world := rfl
@[simp] theorem finish_draws : (finish s).draws = s.draws := rfl

/-! ### present -/

@[simp] theorem present_txbuf (b : Byte) : (present b s).txbuf = s.txbuf := rfl
@[simp] theorem present_rxbuf (b : Byte) : (present b s).rxbuf = s.rxbuf := rfl
@[simp] theorem present_tx (b : Byte) : (present b s).tx = s.tx := rfl
@[simp] theorem present_rx (b : Byte) : (present b s).rx = s.rx := rfl
@[simp] theorem present_rxa (b : Byte) : (present b s).rxa = s.rxa := rfl
@[simp] theorem present_xf (b : Byte) : (present b s).xf = s.xf := rfl
@[simp] theorem present_line (b : Byte) : (present b s).line = { s.line with xchOut := b } := rfl
@[simp] theorem present_res (b : Byte) : (present b s).res = s.res := rfl
@[simp] theorem present_seq (b : Byte) : (present b s).seq = s.seq := rfl
@[simp] theorem present_busy (b : Byte) : (present b s).busy = s.busy := rfl
@[simp] theorem present_ops (b : Byte) : (present b s).ops = s.ops := rfl
@[simp] theorem present_params (b : Byte) : (present b s).params = s.params := rfl
@[simp] theorem present_world (b : Byte) : (present b s).world = s.world := rfl
@[simp] theorem present_draws (b : Byte) : (present b s).draws = s.draws := rfl

/-! ### setTxs -/

@[simp] theorem setTxs_txbuf (st : TxState) : (setTxs st s).txbuf = s.txbuf := rfl
@[simp] theorem setTxs_rxbuf (st : TxState) : (setTxs st s).rxbuf = s.rxbuf := rfl
@[simp] theorem setTxs_tx (st : TxState) : (setTxs st s).tx = { s.tx with txs := st } := rfl
@[simp] theorem setTxs_rx (st : TxState) : (setTxs st s).rx = s.rx := rfl
@[simp] theorem setTxs_rxa (st : TxState) : (setTxs st s).rxa = s.rxa := rfl
@[simp] theorem setTxs_xf (st : TxState) : (setTxs st s).xf = s.xf := rfl
@[simp] theorem setTxs_line (st : TxState) : (setTxs st s).line = s.line := rfl
@[simp] theorem setTxs_res (st : TxState) : (setTxs st s).res = s.res := rfl
@[simp] theorem setTxs_seq (st : TxState) : (setTxs st s).seq = s.seq := rfl
@[simp] theorem setTxs_busy (st : TxState) : (setTxs st s).busy = s.busy := rfl
@[simp] theorem setTxs_ops (st : TxState) : (setTxs st s).ops = s.ops := rfl
@[simp] theorem setTxs_params (st : TxState) : (setTxs st s).params = s.params := rfl
@[simp] theorem setTxs_world (st : TxState) : (setTxs st s).world = s.world := rfl
@[simp] theorem setTxs_draws (st : TxState) : (setTxs st s).draws = s.draws := rfl

/-! ### setRxs -/

@[simp] theorem setRxs_txbuf (st : RxState) : (setRxs st s).txbuf = s.txbuf := rfl
@[simp] theorem setRxs_rxbuf (st : RxState) : (setRxs st s).rxbuf = s.rxbuf := rfl
@[simp] theorem setRxs_tx (st : RxState) : (setRxs st s).tx = s.tx := rfl
@[simp] theorem setRxs_rx (st : RxState) : (setRxs st s).rx = { s.rx with rxs := st } := rfl
@[simp] theorem setRxs_rxa (st : RxState) : (setRxs st s).rxa = s.rxa := rfl
@[simp] theorem setRxs_xf (st : RxState) : (setRxs st s).xf = s.xf := rfl
@[simp] theorem setRxs_line (st : RxState) : (setRxs st s).line = s.line := rfl
@[simp] theorem setRxs_res (st : RxState) : (setRxs st s).res = s.res := rfl
@[simp] theorem setRxs_seq (st : RxState) : (setRxs st s).seq = s.seq := rfl
@[simp] theorem setRxs_busy (st : RxState) : (setRxs st s).busy = s.busy := rfl
@[simp] theorem setRxs_ops (st : RxState) : (setRxs st s).ops = s.ops := rfl
@[simp] theorem setRxs_params (st : RxState) : (setRxs st s).params = s.params := rfl
@[simp] theorem setRxs_world (st : RxState) : (setRxs st s).world = s.world := rfl
@[simp] theorem setRxs_draws (st : RxState) : (setRxs st s).draws = s.draws := rfl

/-! ### setResult -/

@[simp] theorem setResult_txbuf (r : FlagSet) : (setResult r s).txbuf = s.txbuf := rfl
@[simp] theorem setResult_rxbuf (r : FlagSet) : (setResult r s).rxbuf = s.rxbuf := rfl
@[simp] theorem setResult_tx (r : FlagSet) : (setResult r s).tx = s.tx := rfl
@[simp] theorem setResult_rx (r : FlagSet) : (setResult r s).rx = s.rx := rfl
@[simp] theorem setResult_rxa (r : FlagSet) : (setResult r s).rxa = s.rxa := rfl
@[simp] theorem setResult_xf (r : FlagSet) : (setResult r s).xf = s.xf := rfl
@[simp] theorem setResult_line (r : FlagSet) : (setResult r s).line = s.line := rfl
@[simp] theorem setResult_res (r : FlagSet) :
    (setResult r s).res =
      { s.res with result := r } := rfl
@[simp] theorem setResult_seq (r : FlagSet) : (setResult r s).seq = s.seq := rfl
@[simp] theorem setResult_busy (r : FlagSet) : (setResult r s).busy = s.busy := rfl
@[simp] theorem setResult_ops (r : FlagSet) : (setResult r s).ops = s.ops := rfl
@[simp] theorem setResult_params (r : FlagSet) : (setResult r s).params = s.params := rfl
@[simp] theorem setResult_world (r : FlagSet) : (setResult r s).world = s.world := rfl
@[simp] theorem setResult_draws (r : FlagSet) : (setResult r s).draws = s.draws := rfl

/-! ### raiseX -/

@[simp] theorem raiseX_txbuf (f : Flag) : (raiseX f s).txbuf = s.txbuf := rfl
@[simp] theorem raiseX_rxbuf (f : Flag) : (raiseX f s).rxbuf = s.rxbuf := rfl
@[simp] theorem raiseX_tx (f : Flag) : (raiseX f s).tx = s.tx := rfl
@[simp] theorem raiseX_rx (f : Flag) : (raiseX f s).rx = s.rx := rfl
@[simp] theorem raiseX_rxa (f : Flag) : (raiseX f s).rxa = s.rxa := rfl
@[simp] theorem raiseX_xf (f : Flag) :
    (raiseX f s).xf =
      { s.xf with xresult := withFlag f s.xf.xresult } := rfl
@[simp] theorem raiseX_line (f : Flag) : (raiseX f s).line = s.line := rfl
@[simp] theorem raiseX_res (f : Flag) : (raiseX f s).res = s.res := rfl
@[simp] theorem raiseX_seq (f : Flag) : (raiseX f s).seq = s.seq := rfl
@[simp] theorem raiseX_busy (f : Flag) : (raiseX f s).busy = s.busy := rfl
@[simp] theorem raiseX_ops (f : Flag) : (raiseX f s).ops = s.ops := rfl
@[simp] theorem raiseX_params (f : Flag) : (raiseX f s).params = s.params := rfl
@[simp] theorem raiseX_world (f : Flag) : (raiseX f s).world = s.world := rfl
@[simp] theorem raiseX_draws (f : Flag) : (raiseX f s).draws = s.draws := rfl

/-! ### clearX -/

@[simp] theorem clearX_txbuf : (clearX s).txbuf = s.txbuf := rfl
@[simp] theorem clearX_rxbuf : (clearX s).rxbuf = s.rxbuf := rfl
@[simp] theorem clearX_tx : (clearX s).tx = s.tx := rfl
@[simp] theorem clearX_rx : (clearX s).rx = s.rx := rfl
@[simp] theorem clearX_rxa : (clearX s).rxa = s.rxa := rfl
@[simp] theorem clearX_xf : (clearX s).xf = { s.xf with xresult := 0 } := rfl
@[simp] theorem clearX_line : (clearX s).line = s.line := rfl
@[simp] theorem clearX_res : (clearX s).res = s.res := rfl
@[simp] theorem clearX_seq : (clearX s).seq = s.seq := rfl
@[simp] theorem clearX_busy : (clearX s).busy = s.busy := rfl
@[simp] theorem clearX_ops : (clearX s).ops = s.ops := rfl
@[simp] theorem clearX_params : (clearX s).params = s.params := rfl
@[simp] theorem clearX_world : (clearX s).world = s.world := rfl
@[simp] theorem clearX_draws : (clearX s).draws = s.draws := rfl

/-! ### loadXfer -/

@[simp] theorem loadXfer_txbuf (o : Bool) (st : TxState) (n : Nat) :
    (loadXfer o st n s).txbuf =
      s.txbuf := rfl
@[simp] theorem loadXfer_rxbuf (o : Bool) (st : TxState) (n : Nat) :
    (loadXfer o st n s).rxbuf =
      s.rxbuf := rfl
@[simp] theorem loadXfer_tx (o : Bool) (st : TxState) (n : Nat) :
    (loadXfer o st n s).tx =
      { s.tx with txs := st } := rfl
@[simp] theorem loadXfer_rx (o : Bool) (st : TxState) (n : Nat) :
    (loadXfer o st n s).rx =
      { s.rx with rxs := .idle } := rfl
@[simp] theorem loadXfer_rxa (o : Bool) (st : TxState) (n : Nat) :
    (loadXfer o st n s).rxa =
      s.rxa := rfl
@[simp] theorem loadXfer_xf (o : Bool) (st : TxState) (n : Nat) :
    (loadXfer o st n s).xf =
      { s.xf with rxonly := o, retry := n, rxseen := false } := rfl
@[simp] theorem loadXfer_line (o : Bool) (st : TxState) (n : Nat) :
    (loadXfer o st n s).line =
      s.line := rfl
@[simp] theorem loadXfer_res (o : Bool) (st : TxState) (n : Nat) :
    (loadXfer o st n s).res =
      s.res := rfl
@[simp] theorem loadXfer_seq (o : Bool) (st : TxState) (n : Nat) :
    (loadXfer o st n s).seq =
      s.seq := rfl
@[simp] theorem loadXfer_busy (o : Bool) (st : TxState) (n : Nat) :
    (loadXfer o st n s).busy =
      s.busy := rfl
@[simp] theorem loadXfer_ops (o : Bool) (st : TxState) (n : Nat) :
    (loadXfer o st n s).ops =
      s.ops := rfl
@[simp] theorem loadXfer_params (o : Bool) (st : TxState) (n : Nat) :
    (loadXfer o st n s).params =
      s.params := rfl
@[simp] theorem loadXfer_world (o : Bool) (st : TxState) (n : Nat) :
    (loadXfer o st n s).world =
      s.world := rfl
@[simp] theorem loadXfer_draws (o : Bool) (st : TxState) (n : Nat) :
    (loadXfer o st n s).draws =
      s.draws := rfl

/-! ### selectLine -/

@[simp] theorem selectLine_txbuf (v : Bool) : (selectLine v s).txbuf = s.txbuf := rfl
@[simp] theorem selectLine_rxbuf (v : Bool) : (selectLine v s).rxbuf = s.rxbuf := rfl
@[simp] theorem selectLine_tx (v : Bool) : (selectLine v s).tx = s.tx := rfl
@[simp] theorem selectLine_rx (v : Bool) : (selectLine v s).rx = s.rx := rfl
@[simp] theorem selectLine_rxa (v : Bool) : (selectLine v s).rxa = s.rxa := rfl
@[simp] theorem selectLine_xf (v : Bool) : (selectLine v s).xf = s.xf := rfl
@[simp] theorem selectLine_line (v : Bool) :
    (selectLine v s).line =
      { s.line with select := v } := rfl
@[simp] theorem selectLine_res (v : Bool) : (selectLine v s).res = s.res := rfl
@[simp] theorem selectLine_seq (v : Bool) : (selectLine v s).seq = s.seq := rfl
@[simp] theorem selectLine_busy (v : Bool) : (selectLine v s).busy = s.busy := rfl
@[simp] theorem selectLine_ops (v : Bool) : (selectLine v s).ops = s.ops := rfl
@[simp] theorem selectLine_params (v : Bool) : (selectLine v s).params = s.params := rfl
@[simp] theorem selectLine_world (v : Bool) :
    (selectLine v s).world =
      { s.world with events := .select v :: s.world.events } := rfl
@[simp] theorem selectLine_draws (v : Bool) : (selectLine v s).draws = s.draws := rfl

/-! ### delay -/

@[simp] theorem delay_txbuf (n : Nat) : (delay n s).txbuf = s.txbuf := rfl
@[simp] theorem delay_rxbuf (n : Nat) : (delay n s).rxbuf = s.rxbuf := rfl
@[simp] theorem delay_tx (n : Nat) : (delay n s).tx = s.tx := rfl
@[simp] theorem delay_rx (n : Nat) : (delay n s).rx = s.rx := rfl
@[simp] theorem delay_rxa (n : Nat) : (delay n s).rxa = s.rxa := rfl
@[simp] theorem delay_xf (n : Nat) : (delay n s).xf = s.xf := rfl
@[simp] theorem delay_line (n : Nat) : (delay n s).line = s.line := rfl
@[simp] theorem delay_res (n : Nat) : (delay n s).res = s.res := rfl
@[simp] theorem delay_seq (n : Nat) : (delay n s).seq = s.seq := rfl
@[simp] theorem delay_busy (n : Nat) : (delay n s).busy = s.busy := rfl
@[simp] theorem delay_ops (n : Nat) : (delay n s).ops = s.ops := rfl
@[simp] theorem delay_params (n : Nat) : (delay n s).params = s.params := rfl
@[simp] theorem delay_world (n : Nat) :
    (delay n s).world =
      { s.world with events := .delay n :: s.world.events } := rfl
@[simp] theorem delay_draws (n : Nat) : (delay n s).draws = s.draws := rfl

/-! ### setRequestLine -/

@[simp] theorem setRequestLine_txbuf (st : Power) : (setRequestLine st s).txbuf = s.txbuf := rfl
@[simp] theorem setRequestLine_rxbuf (st : Power) : (setRequestLine st s).rxbuf = s.rxbuf := rfl
@[simp] theorem setRequestLine_tx (st : Power) : (setRequestLine st s).tx = s.tx := rfl
@[simp] theorem setRequestLine_rx (st : Power) : (setRequestLine st s).rx = s.rx := rfl
@[simp] theorem setRequestLine_rxa (st : Power) : (setRequestLine st s).rxa = s.rxa := rfl
@[simp] theorem setRequestLine_xf (st : Power) : (setRequestLine st s).xf = s.xf := rfl
@[simp] theorem setRequestLine_line (st : Power) :
    (setRequestLine st s).line =
      { s.line with pwrReq := st } := rfl
@[simp] theorem setRequestLine_res (st : Power) : (setRequestLine st s).res = s.res := rfl
@[simp] theorem setRequestLine_seq (st : Power) : (setRequestLine st s).seq = s.seq := rfl
@[simp] theorem setRequestLine_busy (st : Power) : (setRequestLine st s).busy = s.busy := rfl
@[simp] theorem setRequestLine_ops (st : Power) : (setRequestLine st s).ops = s.ops := rfl
@[simp] theorem setRequestLine_params (st : Power) : (setRequestLine st s).params = s.params := rfl
@[simp] theorem setRequestLine_world (st : Power) :
    (setRequestLine st s).world =
      { s.world with events := .setRequestLine st :: s.world.events } := rfl
@[simp] theorem setRequestLine_draws (st : Power) : (setRequestLine st s).draws = s.draws := rfl

/-! ### resetAssert -/

@[simp] theorem resetAssert_txbuf : (resetAssert s).txbuf = s.txbuf := rfl
@[simp] theorem resetAssert_rxbuf : (resetAssert s).rxbuf = s.rxbuf := rfl
@[simp] theorem resetAssert_tx : (resetAssert s).tx = s.tx := rfl
@[simp] theorem resetAssert_rx : (resetAssert s).rx = s.rx := rfl
@[simp] theorem resetAssert_rxa : (resetAssert s).rxa = s.rxa := rfl
@[simp] theorem resetAssert_xf : (resetAssert s).xf = s.xf := rfl
@[simp] theorem resetAssert_line : (resetAssert s).line = { s.line with resetOut := true } := rfl
@[simp] theorem resetAssert_res : (resetAssert s).res = s.res := rfl
@[simp] theorem resetAssert_seq : (resetAssert s).seq = s.seq := rfl
@[simp] theorem resetAssert_busy : (resetAssert s).busy = s.busy := rfl
@[simp] theorem resetAssert_ops : (resetAssert s).ops = s.ops := rfl
@[simp] theorem resetAssert_params : (resetAssert s).params = s.params := rfl
@[simp] theorem resetAssert_world :
    (resetAssert s).world =
      { s.world with events := .resetAssert :: s.world.events } := rfl
@[simp] theorem resetAssert_draws : (resetAssert s).draws = s.draws := rfl

/-! ### resetDeassert -/

@[simp] theorem resetDeassert_txbuf : (resetDeassert s).txbuf = s.txbuf := rfl
@[simp] theorem resetDeassert_rxbuf : (resetDeassert s).rxbuf = s.rxbuf := rfl
@[simp] theorem resetDeassert_tx : (resetDeassert s).tx = s.tx := rfl
@[simp] theorem resetDeassert_rx : (resetDeassert s).rx = s.rx := rfl
@[simp] theorem resetDeassert_rxa : (resetDeassert s).rxa = s.rxa := rfl
@[simp] theorem resetDeassert_xf : (resetDeassert s).xf = s.xf := rfl
@[simp] theorem resetDeassert_line :
    (resetDeassert s).line =
      { s.line with resetOut := false } := rfl
@[simp] theorem resetDeassert_res : (resetDeassert s).res = s.res := rfl
@[simp] theorem resetDeassert_seq : (resetDeassert s).seq = s.seq := rfl
@[simp] theorem resetDeassert_busy : (resetDeassert s).busy = s.busy := rfl
@[simp] theorem resetDeassert_ops : (resetDeassert s).ops = s.ops := rfl
@[simp] theorem resetDeassert_params : (resetDeassert s).params = s.params := rfl
@[simp] theorem resetDeassert_world :
    (resetDeassert s).world =
      { s.world with events := .resetDeassert :: s.world.events } := rfl
@[simp] theorem resetDeassert_draws : (resetDeassert s).draws = s.draws := rfl

/-! ### commit -/

@[simp] theorem commit_txbuf : (commit s).txbuf = s.txbuf := rfl
@[simp] theorem commit_rxbuf :
    (commit s).rxbuf =
      { length := s.rx.rxn, frameType := s.rxa.frameType, payload := copyPrefix s.rxa.payload s.rxa.fill s.rx.rxn.toNat, fill := s.draws } := rfl
@[simp] theorem commit_tx : (commit s).tx = s.tx := rfl
@[simp] theorem commit_rx : (commit s).rx = s.rx := rfl
@[simp] theorem commit_rxa : (commit s).rxa = s.rxa := rfl
@[simp] theorem commit_xf : (commit s).xf = s.xf := rfl
@[simp] theorem commit_line : (commit s).line = s.line := rfl
@[simp] theorem commit_res : (commit s).res = s.res := rfl
@[simp] theorem commit_seq : (commit s).seq = s.seq := rfl
@[simp] theorem commit_busy : (commit s).busy = s.busy := rfl
@[simp] theorem commit_ops : (commit s).ops = s.ops := rfl
@[simp] theorem commit_params : (commit s).params = s.params := rfl
@[simp] theorem commit_world : (commit s).world = s.world := rfl
@[simp] theorem commit_draws : (commit s).draws = s.draws + 1 := rfl

/-! ### setSeqs -/

@[simp] theorem setSeqs_txbuf (st : SeqState) : (setSeqs st s).txbuf = s.txbuf := rfl
@[simp] theorem setSeqs_rxbuf (st : SeqState) : (setSeqs st s).rxbuf = s.rxbuf := rfl
@[simp] theorem setSeqs_tx (st : SeqState) : (setSeqs st s).tx = s.tx := rfl
@[simp] theorem setSeqs_rx (st : SeqState) : (setSeqs st s).rx = s.rx := rfl
@[simp] theorem setSeqs_rxa (st : SeqState) : (setSeqs st s).rxa = s.rxa := rfl
@[simp] theorem setSeqs_xf (st : SeqState) : (setSeqs st s).xf = s.xf := rfl
@[simp] theorem setSeqs_line (st : SeqState) : (setSeqs st s).line = s.line := rfl
@[simp] theorem setSeqs_res (st : SeqState) : (setSeqs st s).res = s.res := rfl
@[simp] theorem setSeqs_seq (st : SeqState) : (setSeqs st s).seq = { s.seq with seqs := st } := rfl
@[simp] theorem setSeqs_busy (st : SeqState) : (setSeqs st s).busy = s.busy := rfl
@[simp] theorem setSeqs_ops (st : SeqState) : (setSeqs st s).ops = s.ops := rfl
@[simp] theorem setSeqs_params (st : SeqState) : (setSeqs st s).params = s.params := rfl
@[simp] theorem setSeqs_world (st : SeqState) : (setSeqs st s).world = s.world := rfl
@[simp] theorem setSeqs_draws (st : SeqState) : (setSeqs st s).draws = s.draws := rfl

/-! ### saveSend -/

@[simp] theorem saveSend_txbuf : (saveSend s).txbuf = s.txbuf := rfl
@[simp] theorem saveSend_rxbuf : (saveSend s).rxbuf = s.rxbuf := rfl
@[simp] theorem saveSend_tx : (saveSend s).tx = s.tx := rfl
@[simp] theorem saveSend_rx : (saveSend s).rx = s.rx := rfl
@[simp] theorem saveSend_rxa : (saveSend s).rxa = s.rxa := rfl
@[simp] theorem saveSend_xf : (saveSend s).xf = s.xf := rfl
@[simp] theorem saveSend_line : (saveSend s).line = s.line := rfl
@[simp] theorem saveSend_res : (saveSend s).res = { s.res with sendResult := s.xf.xresult } := rfl
@[simp] theorem saveSend_seq : (saveSend s).seq = s.seq := rfl
@[simp] theorem saveSend_busy : (saveSend s).busy = s.busy := rfl
@[simp] theorem saveSend_ops : (saveSend s).ops = s.ops := rfl
@[simp] theorem saveSend_params : (saveSend s).params = s.params := rfl
@[simp] theorem saveSend_world : (saveSend s).world = s.world := rfl
@[simp] theorem saveSend_draws : (saveSend s).draws = s.draws := rfl

/-! ### latchStatus -/

@[simp] theorem latchStatus_txbuf : (latchStatus s).txbuf = s.txbuf := rfl
@[simp] theorem latchStatus_rxbuf : (latchStatus s).rxbuf = s.rxbuf := rfl
@[simp] theorem latchStatus_tx : (latchStatus s).tx = s.tx := rfl
@[simp] theorem latchStatus_rx : (latchStatus s).rx = s.rx := rfl
@[simp] theorem latchStatus_rxa : (latchStatus s).rxa = s.rxa := rfl
@[simp] theorem latchStatus_xf : (latchStatus s).xf = s.xf := rfl
@[simp] theorem latchStatus_line : (latchStatus s).line = s.line := rfl
@[simp] theorem latchStatus_res :
    (latchStatus s).res =
      { s.res with cmdStatus := responseStatus s.rxbuf } := rfl
@[simp] theorem latchStatus_seq : (latchStatus s).seq = s.seq := rfl
@[simp] theorem latchStatus_busy : (latchStatus s).busy = s.busy := rfl
@[simp] theorem latchStatus_ops : (latchStatus s).ops = s.ops := rfl
@[simp] theorem latchStatus_params : (latchStatus s).params = s.params := rfl
@[simp] theorem latchStatus_world : (latchStatus s).world = s.world := rfl
@[simp] theorem latchStatus_draws : (latchStatus s).draws = s.draws := rfl

/-! ### inByte, takeIn -/

theorem inByte_some {b : Byte} (h : s.line.xchIn = some b) : inByte s = b := by simp [inByte, h]
theorem takeIn_some {b : Byte} (h : s.line.xchIn = some b) :
    takeIn s = { s with line := { s.line with xchIn := none } } := by simp [takeIn, h]

/-- What a receive state-step samples, and the state behind it. -/
theorem samples_iff {b : Byte} {t : State} : Samples s b t ↔ b = inByte s ∧ t = takeIn s := by
  unfold Samples inByte takeIn
  cases s.line.xchIn <;> simp [eq_comm]

/-- XCH_IN is empty behind the sample. -/
@[simp] theorem takeIn_xchIn : (takeIn s).line.xchIn = none := by
  unfold takeIn; split <;> simp_all
@[simp] theorem takeIn_select : (takeIn s).line.select = s.line.select := by
  unfold takeIn; split <;> rfl
@[simp] theorem takeIn_pwrReq : (takeIn s).line.pwrReq = s.line.pwrReq := by
  unfold takeIn; split <;> rfl
@[simp] theorem takeIn_resetOut : (takeIn s).line.resetOut = s.line.resetOut := by
  unfold takeIn; split <;> rfl
@[simp] theorem takeIn_xchOut : (takeIn s).line.xchOut = s.line.xchOut := by
  unfold takeIn; split <;> rfl
@[simp] theorem takeIn_txbuf : (takeIn s).txbuf = s.txbuf := by unfold takeIn; split <;> rfl
@[simp] theorem takeIn_rxbuf : (takeIn s).rxbuf = s.rxbuf := by unfold takeIn; split <;> rfl
@[simp] theorem takeIn_tx : (takeIn s).tx = s.tx := by unfold takeIn; split <;> rfl
@[simp] theorem takeIn_rx : (takeIn s).rx = s.rx := by unfold takeIn; split <;> rfl
@[simp] theorem takeIn_rxa : (takeIn s).rxa = s.rxa := by unfold takeIn; split <;> rfl
@[simp] theorem takeIn_xf : (takeIn s).xf = s.xf := by unfold takeIn; split <;> rfl
@[simp] theorem takeIn_res : (takeIn s).res = s.res := by unfold takeIn; split <;> rfl
@[simp] theorem takeIn_seq : (takeIn s).seq = s.seq := by unfold takeIn; split <;> rfl
@[simp] theorem takeIn_busy : (takeIn s).busy = s.busy := by unfold takeIn; split <;> rfl
@[simp] theorem takeIn_ops : (takeIn s).ops = s.ops := by unfold takeIn; split <;> rfl
@[simp] theorem takeIn_params : (takeIn s).params = s.params := by unfold takeIn; split <;> rfl
@[simp] theorem takeIn_world : (takeIn s).world = s.world := by unfold takeIn; split <;> rfl

/-! ### dropPass -/

/-- Only the host's list of actions can change. -/
theorem dropPass_frame : ∃ l, dropPass s = { s with world := { s.world with host := l } } := by
  unfold dropPass
  split <;> exact ⟨_, rfl⟩

theorem dropPass_pass {r : List HostAct} (h : s.world.host = .pass :: r) :
    dropPass s = { s with world := { s.world with host := r } } := by
  simp [dropPass, h, popHost]

theorem dropPass_nil (h : s.world.host = []) : dropPass s = s := by simp [dropPass, h]
theorem dropPass_awaitIdle {r : List HostAct} (h : s.world.host = .awaitIdle :: r) :
    dropPass s = s := by simp [dropPass, h]
@[simp] theorem dropPass_txbuf : (dropPass s).txbuf = s.txbuf := by unfold dropPass; split <;> rfl
@[simp] theorem dropPass_rxbuf : (dropPass s).rxbuf = s.rxbuf := by unfold dropPass; split <;> rfl
@[simp] theorem dropPass_tx : (dropPass s).tx = s.tx := by unfold dropPass; split <;> rfl
@[simp] theorem dropPass_rx : (dropPass s).rx = s.rx := by unfold dropPass; split <;> rfl
@[simp] theorem dropPass_rxa : (dropPass s).rxa = s.rxa := by unfold dropPass; split <;> rfl
@[simp] theorem dropPass_xf : (dropPass s).xf = s.xf := by unfold dropPass; split <;> rfl
@[simp] theorem dropPass_line : (dropPass s).line = s.line := by unfold dropPass; split <;> rfl
@[simp] theorem dropPass_res : (dropPass s).res = s.res := by unfold dropPass; split <;> rfl
@[simp] theorem dropPass_seq : (dropPass s).seq = s.seq := by unfold dropPass; split <;> rfl
@[simp] theorem dropPass_busy : (dropPass s).busy = s.busy := by unfold dropPass; split <;> rfl
@[simp] theorem dropPass_ops : (dropPass s).ops = s.ops := by unfold dropPass; split <;> rfl
@[simp] theorem dropPass_params : (dropPass s).params = s.params := by unfold dropPass; split <;> rfl
@[simp] theorem dropPass_draws : (dropPass s).draws = s.draws := by unfold dropPass; split <;> rfl
@[simp] theorem dropPass_grain : (dropPass s).world.grain = s.world.grain := by
  unfold dropPass; split <;> rfl
@[simp] theorem dropPass_answers : (dropPass s).world.answers = s.world.answers := by
  unfold dropPass; split <;> rfl
@[simp] theorem dropPass_events : (dropPass s).world.events = s.world.events := by
  unfold dropPass; split <;> rfl

/-! ### popHost -/

@[simp] theorem popHost_txbuf : (popHost s).txbuf = s.txbuf := rfl
@[simp] theorem popHost_rxbuf : (popHost s).rxbuf = s.rxbuf := rfl
@[simp] theorem popHost_tx : (popHost s).tx = s.tx := rfl
@[simp] theorem popHost_rx : (popHost s).rx = s.rx := rfl
@[simp] theorem popHost_rxa : (popHost s).rxa = s.rxa := rfl
@[simp] theorem popHost_xf : (popHost s).xf = s.xf := rfl
@[simp] theorem popHost_line : (popHost s).line = s.line := rfl
@[simp] theorem popHost_res : (popHost s).res = s.res := rfl
@[simp] theorem popHost_seq : (popHost s).seq = s.seq := rfl
@[simp] theorem popHost_busy : (popHost s).busy = s.busy := rfl
@[simp] theorem popHost_ops : (popHost s).ops = s.ops := rfl
@[simp] theorem popHost_params : (popHost s).params = s.params := rfl
@[simp] theorem popHost_world :
    (popHost s).world =
      { s.world with host := s.world.host.tail } := rfl
@[simp] theorem popHost_draws : (popHost s).draws = s.draws := rfl

/-! ### dropByte -/

@[simp] theorem dropByte_txbuf : (dropByte s).txbuf = s.txbuf := by unfold dropByte; split <;> rfl
@[simp] theorem dropByte_rxbuf : (dropByte s).rxbuf = s.rxbuf := by unfold dropByte; split <;> rfl
@[simp] theorem dropByte_tx : (dropByte s).tx = s.tx := by unfold dropByte; split <;> rfl
@[simp] theorem dropByte_rx : (dropByte s).rx = s.rx := by unfold dropByte; split <;> rfl
@[simp] theorem dropByte_rxa : (dropByte s).rxa = s.rxa := by unfold dropByte; split <;> rfl
@[simp] theorem dropByte_xf : (dropByte s).xf = s.xf := by unfold dropByte; split <;> rfl
@[simp] theorem dropByte_line : (dropByte s).line = s.line := by unfold dropByte; split <;> rfl
@[simp] theorem dropByte_res : (dropByte s).res = s.res := by unfold dropByte; split <;> rfl
@[simp] theorem dropByte_seq : (dropByte s).seq = s.seq := by unfold dropByte; split <;> rfl
@[simp] theorem dropByte_busy : (dropByte s).busy = s.busy := by unfold dropByte; split <;> rfl
@[simp] theorem dropByte_ops : (dropByte s).ops = s.ops := by unfold dropByte; split <;> rfl
@[simp] theorem dropByte_params : (dropByte s).params = s.params := by unfold dropByte; split <;> rfl

/-! ### dropStatus -/

@[simp] theorem dropStatus_txbuf : (dropStatus s).txbuf = s.txbuf := by unfold dropStatus; split <;> rfl
@[simp] theorem dropStatus_rxbuf : (dropStatus s).rxbuf = s.rxbuf := by unfold dropStatus; split <;> rfl
@[simp] theorem dropStatus_tx : (dropStatus s).tx = s.tx := by unfold dropStatus; split <;> rfl
@[simp] theorem dropStatus_rx : (dropStatus s).rx = s.rx := by unfold dropStatus; split <;> rfl
@[simp] theorem dropStatus_rxa : (dropStatus s).rxa = s.rxa := by unfold dropStatus; split <;> rfl
@[simp] theorem dropStatus_xf : (dropStatus s).xf = s.xf := by unfold dropStatus; split <;> rfl
@[simp] theorem dropStatus_line : (dropStatus s).line = s.line := by unfold dropStatus; split <;> rfl
@[simp] theorem dropStatus_res : (dropStatus s).res = s.res := by unfold dropStatus; split <;> rfl
@[simp] theorem dropStatus_seq : (dropStatus s).seq = s.seq := by unfold dropStatus; split <;> rfl
@[simp] theorem dropStatus_busy : (dropStatus s).busy = s.busy := by unfold dropStatus; split <;> rfl
@[simp] theorem dropStatus_ops : (dropStatus s).ops = s.ops := by unfold dropStatus; split <;> rfl
@[simp] theorem dropStatus_params : (dropStatus s).params = s.params := by unfold dropStatus; split <;> rfl

/-! ### dropAttn -/

@[simp] theorem dropAttn_txbuf : (dropAttn s).txbuf = s.txbuf := by unfold dropAttn; split <;> rfl
@[simp] theorem dropAttn_rxbuf : (dropAttn s).rxbuf = s.rxbuf := by unfold dropAttn; split <;> rfl
@[simp] theorem dropAttn_tx : (dropAttn s).tx = s.tx := by unfold dropAttn; split <;> rfl
@[simp] theorem dropAttn_rx : (dropAttn s).rx = s.rx := by unfold dropAttn; split <;> rfl
@[simp] theorem dropAttn_rxa : (dropAttn s).rxa = s.rxa := by unfold dropAttn; split <;> rfl
@[simp] theorem dropAttn_xf : (dropAttn s).xf = s.xf := by unfold dropAttn; split <;> rfl
@[simp] theorem dropAttn_line : (dropAttn s).line = s.line := by unfold dropAttn; split <;> rfl
@[simp] theorem dropAttn_res : (dropAttn s).res = s.res := by unfold dropAttn; split <;> rfl
@[simp] theorem dropAttn_seq : (dropAttn s).seq = s.seq := by unfold dropAttn; split <;> rfl
@[simp] theorem dropAttn_busy : (dropAttn s).busy = s.busy := by unfold dropAttn; split <;> rfl
@[simp] theorem dropAttn_ops : (dropAttn s).ops = s.ops := by unfold dropAttn; split <;> rfl
@[simp] theorem dropAttn_params : (dropAttn s).params = s.params := by unfold dropAttn; split <;> rfl

/-! ### exchange -/

@[simp] theorem exchange_txbuf : (exchange s).txbuf = s.txbuf := by simp [exchange]
@[simp] theorem exchange_rxbuf : (exchange s).rxbuf = s.rxbuf := by simp [exchange]
@[simp] theorem exchange_tx : (exchange s).tx = s.tx := by simp [exchange]
@[simp] theorem exchange_rx : (exchange s).rx = s.rx := by simp [exchange]
@[simp] theorem exchange_rxa : (exchange s).rxa = s.rxa := by simp [exchange]
@[simp] theorem exchange_xf : (exchange s).xf = s.xf := by simp [exchange]
@[simp] theorem exchange_res : (exchange s).res = s.res := by simp [exchange]
@[simp] theorem exchange_seq : (exchange s).seq = s.seq := by simp [exchange]
@[simp] theorem exchange_busy : (exchange s).busy = s.busy := by simp [exchange]
@[simp] theorem exchange_ops : (exchange s).ops = s.ops := by simp [exchange]
@[simp] theorem exchange_params : (exchange s).params = s.params := by simp [exchange]

/-! ### readStatusLine -/

@[simp] theorem readStatusLine_txbuf : (readStatusLine s).txbuf = s.txbuf := by simp [readStatusLine]
@[simp] theorem readStatusLine_rxbuf : (readStatusLine s).rxbuf = s.rxbuf := by simp [readStatusLine]
@[simp] theorem readStatusLine_tx : (readStatusLine s).tx = s.tx := by simp [readStatusLine]
@[simp] theorem readStatusLine_rx : (readStatusLine s).rx = s.rx := by simp [readStatusLine]
@[simp] theorem readStatusLine_rxa : (readStatusLine s).rxa = s.rxa := by simp [readStatusLine]
@[simp] theorem readStatusLine_xf : (readStatusLine s).xf = s.xf := by simp [readStatusLine]
@[simp] theorem readStatusLine_line : (readStatusLine s).line = s.line := by simp [readStatusLine]
@[simp] theorem readStatusLine_res : (readStatusLine s).res = s.res := by simp [readStatusLine]
@[simp] theorem readStatusLine_seq : (readStatusLine s).seq = s.seq := by simp [readStatusLine]
@[simp] theorem readStatusLine_busy : (readStatusLine s).busy = s.busy := by simp [readStatusLine]
@[simp] theorem readStatusLine_ops : (readStatusLine s).ops = s.ops := by simp [readStatusLine]
@[simp] theorem readStatusLine_params : (readStatusLine s).params = s.params := by simp [readStatusLine]

/-! ### readAttentionLine -/

@[simp] theorem readAttentionLine_txbuf : (readAttentionLine s).txbuf = s.txbuf := by simp [readAttentionLine]
@[simp] theorem readAttentionLine_rxbuf : (readAttentionLine s).rxbuf = s.rxbuf := by simp [readAttentionLine]
@[simp] theorem readAttentionLine_tx : (readAttentionLine s).tx = s.tx := by simp [readAttentionLine]
@[simp] theorem readAttentionLine_rx : (readAttentionLine s).rx = s.rx := by simp [readAttentionLine]
@[simp] theorem readAttentionLine_rxa : (readAttentionLine s).rxa = s.rxa := by simp [readAttentionLine]
@[simp] theorem readAttentionLine_xf : (readAttentionLine s).xf = s.xf := by simp [readAttentionLine]
@[simp] theorem readAttentionLine_line : (readAttentionLine s).line = s.line := by simp [readAttentionLine]
@[simp] theorem readAttentionLine_res : (readAttentionLine s).res = s.res := by simp [readAttentionLine]
@[simp] theorem readAttentionLine_seq : (readAttentionLine s).seq = s.seq := by simp [readAttentionLine]
@[simp] theorem readAttentionLine_busy : (readAttentionLine s).busy = s.busy := by simp [readAttentionLine]
@[simp] theorem readAttentionLine_ops : (readAttentionLine s).ops = s.ops := by simp [readAttentionLine]
@[simp] theorem readAttentionLine_params : (readAttentionLine s).params = s.params := by simp [readAttentionLine]

/-! ### leaveTx -/

@[simp] theorem leaveTx_txbuf : (leaveTx s).txbuf = s.txbuf := by unfold leaveTx; split <;> rfl
@[simp] theorem leaveTx_rxbuf : (leaveTx s).rxbuf = s.rxbuf := by unfold leaveTx; split <;> rfl
@[simp] theorem leaveTx_tx : (leaveTx s).tx = s.tx := by unfold leaveTx; split <;> rfl
@[simp] theorem leaveTx_rx : (leaveTx s).rx = s.rx := by unfold leaveTx; split <;> rfl
@[simp] theorem leaveTx_rxa : (leaveTx s).rxa = s.rxa := by unfold leaveTx; split <;> rfl
@[simp] theorem leaveTx_xf : (leaveTx s).xf = s.xf := by unfold leaveTx; split <;> rfl
@[simp] theorem leaveTx_line : (leaveTx s).line = s.line := by unfold leaveTx; split <;> rfl
@[simp] theorem leaveTx_res : (leaveTx s).res = s.res := by unfold leaveTx; split <;> rfl
@[simp] theorem leaveTx_seq : (leaveTx s).seq = s.seq := by unfold leaveTx; split <;> rfl
@[simp] theorem leaveTx_busy : (leaveTx s).busy = s.busy := by unfold leaveTx; split <;> rfl
@[simp] theorem leaveTx_params : (leaveTx s).params = s.params := by unfold leaveTx; split <;> rfl
@[simp] theorem leaveTx_world : (leaveTx s).world = s.world := by unfold leaveTx; split <;> rfl
@[simp] theorem leaveTx_draws : (leaveTx s).draws = s.draws := by unfold leaveTx; split <;> rfl

/-! ### leaveRx -/

@[simp] theorem leaveRx_txbuf (w : Bool) : (leaveRx w s).txbuf = s.txbuf := by unfold leaveRx; split <;> rfl
@[simp] theorem leaveRx_rxbuf (w : Bool) : (leaveRx w s).rxbuf = s.rxbuf := by unfold leaveRx; split <;> rfl
@[simp] theorem leaveRx_tx (w : Bool) : (leaveRx w s).tx = s.tx := by unfold leaveRx; split <;> rfl
@[simp] theorem leaveRx_rx (w : Bool) : (leaveRx w s).rx = s.rx := by unfold leaveRx; split <;> rfl
@[simp] theorem leaveRx_rxa (w : Bool) : (leaveRx w s).rxa = s.rxa := by unfold leaveRx; split <;> rfl
@[simp] theorem leaveRx_xf (w : Bool) : (leaveRx w s).xf = s.xf := by unfold leaveRx; split <;> rfl
@[simp] theorem leaveRx_line (w : Bool) : (leaveRx w s).line = s.line := by unfold leaveRx; split <;> rfl
@[simp] theorem leaveRx_res (w : Bool) : (leaveRx w s).res = s.res := by unfold leaveRx; split <;> rfl
@[simp] theorem leaveRx_seq (w : Bool) : (leaveRx w s).seq = s.seq := by unfold leaveRx; split <;> rfl
@[simp] theorem leaveRx_busy (w : Bool) : (leaveRx w s).busy = s.busy := by unfold leaveRx; split <;> rfl
@[simp] theorem leaveRx_params (w : Bool) : (leaveRx w s).params = s.params := by unfold leaveRx; split <;> rfl
@[simp] theorem leaveRx_world (w : Bool) : (leaveRx w s).world = s.world := by unfold leaveRx; split <;> rfl
@[simp] theorem leaveRx_draws (w : Bool) : (leaveRx w s).draws = s.draws := by unfold leaveRx; split <;> rfl

/-! ### leaveRaise -/

@[simp] theorem leaveRaise_txbuf (f : Flag) : (leaveRaise f s).txbuf = s.txbuf := by
  unfold leaveRaise
  repeat' split
  all_goals rfl
@[simp] theorem leaveRaise_rxbuf (f : Flag) : (leaveRaise f s).rxbuf = s.rxbuf := by
  unfold leaveRaise
  repeat' split
  all_goals rfl
@[simp] theorem leaveRaise_tx (f : Flag) : (leaveRaise f s).tx = s.tx := by
  unfold leaveRaise
  repeat' split
  all_goals rfl
@[simp] theorem leaveRaise_rx (f : Flag) : (leaveRaise f s).rx = s.rx := by
  unfold leaveRaise
  repeat' split
  all_goals rfl
@[simp] theorem leaveRaise_rxa (f : Flag) : (leaveRaise f s).rxa = s.rxa := by
  unfold leaveRaise
  repeat' split
  all_goals rfl
@[simp] theorem leaveRaise_xf (f : Flag) : (leaveRaise f s).xf = s.xf := by
  unfold leaveRaise
  repeat' split
  all_goals rfl
@[simp] theorem leaveRaise_line (f : Flag) : (leaveRaise f s).line = s.line := by
  unfold leaveRaise
  repeat' split
  all_goals rfl
@[simp] theorem leaveRaise_res (f : Flag) : (leaveRaise f s).res = s.res := by
  unfold leaveRaise
  repeat' split
  all_goals rfl
@[simp] theorem leaveRaise_seq (f : Flag) : (leaveRaise f s).seq = s.seq := by
  unfold leaveRaise
  repeat' split
  all_goals rfl
@[simp] theorem leaveRaise_busy (f : Flag) : (leaveRaise f s).busy = s.busy := by
  unfold leaveRaise
  repeat' split
  all_goals rfl
@[simp] theorem leaveRaise_params (f : Flag) : (leaveRaise f s).params = s.params := by
  unfold leaveRaise
  repeat' split
  all_goals rfl
@[simp] theorem leaveRaise_world (f : Flag) : (leaveRaise f s).world = s.world := by
  unfold leaveRaise
  repeat' split
  all_goals rfl
@[simp] theorem leaveRaise_draws (f : Flag) : (leaveRaise f s).draws = s.draws := by
  unfold leaveRaise
  repeat' split
  all_goals rfl

/-! ### retryUpdate -/

@[simp] theorem retryUpdate_txbuf (w : Bool) : (retryUpdate w s).txbuf = s.txbuf := by unfold retryUpdate; split <;> rfl
@[simp] theorem retryUpdate_rxbuf (w : Bool) : (retryUpdate w s).rxbuf = s.rxbuf := by unfold retryUpdate; split <;> rfl
@[simp] theorem retryUpdate_tx (w : Bool) : (retryUpdate w s).tx = s.tx := by unfold retryUpdate; split <;> rfl
@[simp] theorem retryUpdate_rx (w : Bool) : (retryUpdate w s).rx = s.rx := by unfold retryUpdate; split <;> rfl
@[simp] theorem retryUpdate_rxa (w : Bool) : (retryUpdate w s).rxa = s.rxa := by unfold retryUpdate; split <;> rfl
@[simp] theorem retryUpdate_line (w : Bool) : (retryUpdate w s).line = s.line := by unfold retryUpdate; split <;> rfl
@[simp] theorem retryUpdate_res (w : Bool) : (retryUpdate w s).res = s.res := by unfold retryUpdate; split <;> rfl
@[simp] theorem retryUpdate_seq (w : Bool) : (retryUpdate w s).seq = s.seq := by unfold retryUpdate; split <;> rfl
@[simp] theorem retryUpdate_busy (w : Bool) : (retryUpdate w s).busy = s.busy := by unfold retryUpdate; split <;> rfl
@[simp] theorem retryUpdate_ops (w : Bool) : (retryUpdate w s).ops = s.ops := by unfold retryUpdate; split <;> rfl
@[simp] theorem retryUpdate_params (w : Bool) : (retryUpdate w s).params = s.params := by unfold retryUpdate; split <;> rfl
@[simp] theorem retryUpdate_world (w : Bool) : (retryUpdate w s).world = s.world := by unfold retryUpdate; split <;> rfl
@[simp] theorem retryUpdate_draws (w : Bool) : (retryUpdate w s).draws = s.draws := by unfold retryUpdate; split <;> rfl

/-- The exchange ports after an exchange. -/
@[simp] theorem exchange_line :
    (exchange s).line = { s.line with xchIn := some (nextByte s) } := by simp [exchange]

end Sys2Proof.Machine
end

