-- ==== Sys2Proof/Laws/Framer.lean ====
section
/-! SUPPORT. The framer: what the two machines can do, said once. `rxStep` writes RX registers, RXA, RXBUF,
the transaction registers and the free-value counter only; `txStep` writes the TX registers, XCH_OUT
and XRESULT only, and faults only in TX_DATA outside the array. -/

namespace Sys2Proof.Machine

open Sys2Proof

variable (s : State) (b : Byte)

/-! ## raise Flag(F) -/

/-- The flags of a transaction are raised in XRESULT. -/
theorem raiseFlag_of_xfer (f : Flag) (h : raisedByXfer f = true) :
    raiseFlag f s = raiseX f s := by simp [raiseFlag, h]

@[simp] theorem raiseFlag_sizeError : raiseFlag .sizeError s = raiseX .sizeError s := rfl
@[simp] theorem raiseFlag_txSuccess : raiseFlag .txSuccess s = raiseX .txSuccess s := rfl
@[simp] theorem raiseFlag_rxSuccess : raiseFlag .rxSuccess s = raiseX .rxSuccess s := rfl
@[simp] theorem raiseFlag_noData : raiseFlag .noData s = raiseX .noData s := rfl
@[simp] theorem raiseFlag_rxTooLong : raiseFlag .rxTooLong s = raiseX .rxTooLong s := rfl
@[simp] theorem raiseFlag_badChecksum : raiseFlag .badChecksum s = raiseX .badChecksum s := rfl

/-! ## The receive machine's fields -/

@[simp] theorem rxIdle_txbuf : (rxIdle b s).txbuf = s.txbuf := by unfold rxIdle; split <;> rfl
@[simp] theorem rxIdle_rxbuf : (rxIdle b s).rxbuf = s.rxbuf := by unfold rxIdle; split <;> rfl
@[simp] theorem rxIdle_tx : (rxIdle b s).tx = s.tx := by unfold rxIdle; split <;> rfl
@[simp] theorem rxIdle_rxa : (rxIdle b s).rxa = s.rxa := by unfold rxIdle; split <;> rfl
@[simp] theorem rxIdle_line : (rxIdle b s).line = s.line := by unfold rxIdle; split <;> rfl
@[simp] theorem rxIdle_res : (rxIdle b s).res = s.res := by unfold rxIdle; split <;> rfl
@[simp] theorem rxIdle_seq : (rxIdle b s).seq = s.seq := by unfold rxIdle; split <;> rfl
@[simp] theorem rxIdle_busy : (rxIdle b s).busy = s.busy := by unfold rxIdle; split <;> rfl
@[simp] theorem rxIdle_ops : (rxIdle b s).ops = s.ops := by unfold rxIdle; split <;> rfl
@[simp] theorem rxIdle_params : (rxIdle b s).params = s.params := by unfold rxIdle; split <;> rfl
@[simp] theorem rxIdle_world : (rxIdle b s).world = s.world := by unfold rxIdle; split <;> rfl
@[simp] theorem rxIdle_draws : (rxIdle b s).draws = s.draws := by unfold rxIdle; split <;> rfl

@[simp] theorem rxLenHi_txbuf : (rxLenHi b s).txbuf = s.txbuf := rfl
@[simp] theorem rxLenHi_rxbuf : (rxLenHi b s).rxbuf = s.rxbuf := rfl
@[simp] theorem rxLenHi_tx : (rxLenHi b s).tx = s.tx := rfl
@[simp] theorem rxLenHi_rxa : (rxLenHi b s).rxa = s.rxa := rfl
@[simp] theorem rxLenHi_xf : (rxLenHi b s).xf = s.xf := rfl
@[simp] theorem rxLenHi_line : (rxLenHi b s).line = s.line := rfl
@[simp] theorem rxLenHi_res : (rxLenHi b s).res = s.res := rfl
@[simp] theorem rxLenHi_seq : (rxLenHi b s).seq = s.seq := rfl
@[simp] theorem rxLenHi_busy : (rxLenHi b s).busy = s.busy := rfl
@[simp] theorem rxLenHi_ops : (rxLenHi b s).ops = s.ops := rfl
@[simp] theorem rxLenHi_params : (rxLenHi b s).params = s.params := rfl
@[simp] theorem rxLenHi_world : (rxLenHi b s).world = s.world := rfl
@[simp] theorem rxLenHi_draws : (rxLenHi b s).draws = s.draws := rfl

@[simp] theorem rxLongTest_txbuf : (rxLongTest s).txbuf = s.txbuf := by unfold rxLongTest; split <;> rfl
@[simp] theorem rxLongTest_rxbuf : (rxLongTest s).rxbuf = s.rxbuf := by unfold rxLongTest; split <;> rfl
@[simp] theorem rxLongTest_tx : (rxLongTest s).tx = s.tx := by unfold rxLongTest; split <;> rfl
@[simp] theorem rxLongTest_rxa : (rxLongTest s).rxa = s.rxa := by unfold rxLongTest; split <;> rfl
@[simp] theorem rxLongTest_line : (rxLongTest s).line = s.line := by unfold rxLongTest; split <;> rfl
@[simp] theorem rxLongTest_res : (rxLongTest s).res = s.res := by unfold rxLongTest; split <;> rfl
@[simp] theorem rxLongTest_seq : (rxLongTest s).seq = s.seq := by unfold rxLongTest; split <;> rfl
@[simp] theorem rxLongTest_busy : (rxLongTest s).busy = s.busy := by unfold rxLongTest; split <;> rfl
@[simp] theorem rxLongTest_ops : (rxLongTest s).ops = s.ops := by unfold rxLongTest; split <;> rfl
@[simp] theorem rxLongTest_params : (rxLongTest s).params = s.params := by unfold rxLongTest; split <;> rfl
@[simp] theorem rxLongTest_world : (rxLongTest s).world = s.world := by unfold rxLongTest; split <;> rfl
@[simp] theorem rxLongTest_draws : (rxLongTest s).draws = s.draws := by unfold rxLongTest; split <;> rfl

@[simp] theorem rxLenLo_txbuf : (rxLenLo b s).txbuf = s.txbuf := by simp [rxLenLo]
@[simp] theorem rxLenLo_rxbuf : (rxLenLo b s).rxbuf = s.rxbuf := by simp [rxLenLo]
@[simp] theorem rxLenLo_tx : (rxLenLo b s).tx = s.tx := by simp [rxLenLo]
@[simp] theorem rxLenLo_rxa : (rxLenLo b s).rxa = s.rxa := by simp [rxLenLo]
@[simp] theorem rxLenLo_line : (rxLenLo b s).line = s.line := by simp [rxLenLo]
@[simp] theorem rxLenLo_res : (rxLenLo b s).res = s.res := by simp [rxLenLo]
@[simp] theorem rxLenLo_seq : (rxLenLo b s).seq = s.seq := by simp [rxLenLo]
@[simp] theorem rxLenLo_busy : (rxLenLo b s).busy = s.busy := by simp [rxLenLo]
@[simp] theorem rxLenLo_ops : (rxLenLo b s).ops = s.ops := by simp [rxLenLo]
@[simp] theorem rxLenLo_params : (rxLenLo b s).params = s.params := by simp [rxLenLo]
@[simp] theorem rxLenLo_world : (rxLenLo b s).world = s.world := by simp [rxLenLo]
@[simp] theorem rxLenLo_draws : (rxLenLo b s).draws = s.draws := by simp [rxLenLo]

@[simp] theorem rxType_txbuf : (rxType b s).txbuf = s.txbuf := rfl
@[simp] theorem rxType_rxbuf : (rxType b s).rxbuf = s.rxbuf := rfl
@[simp] theorem rxType_tx : (rxType b s).tx = s.tx := rfl
@[simp] theorem rxType_xf : (rxType b s).xf = s.xf := rfl
@[simp] theorem rxType_line : (rxType b s).line = s.line := rfl
@[simp] theorem rxType_res : (rxType b s).res = s.res := rfl
@[simp] theorem rxType_seq : (rxType b s).seq = s.seq := rfl
@[simp] theorem rxType_busy : (rxType b s).busy = s.busy := rfl
@[simp] theorem rxType_ops : (rxType b s).ops = s.ops := rfl
@[simp] theorem rxType_params : (rxType b s).params = s.params := rfl
@[simp] theorem rxType_world : (rxType b s).world = s.world := rfl
@[simp] theorem rxType_draws : (rxType b s).draws = s.draws := rfl

@[simp] theorem rxData_txbuf : (rxData b s).txbuf = s.txbuf := rfl
@[simp] theorem rxData_rxbuf : (rxData b s).rxbuf = s.rxbuf := rfl
@[simp] theorem rxData_tx : (rxData b s).tx = s.tx := rfl
@[simp] theorem rxData_xf : (rxData b s).xf = s.xf := rfl
@[simp] theorem rxData_line : (rxData b s).line = s.line := rfl
@[simp] theorem rxData_res : (rxData b s).res = s.res := rfl
@[simp] theorem rxData_seq : (rxData b s).seq = s.seq := rfl
@[simp] theorem rxData_busy : (rxData b s).busy = s.busy := rfl
@[simp] theorem rxData_ops : (rxData b s).ops = s.ops := rfl
@[simp] theorem rxData_params : (rxData b s).params = s.params := rfl
@[simp] theorem rxData_world : (rxData b s).world = s.world := rfl
@[simp] theorem rxData_draws : (rxData b s).draws = s.draws := rfl

@[simp] theorem rxCksum_txbuf : (rxCksum b s).txbuf = s.txbuf := by
  unfold rxCksum
  split
  · split <;> rfl
  · rfl
@[simp] theorem rxCksum_tx : (rxCksum b s).tx = s.tx := by
  unfold rxCksum
  split
  · split <;> rfl
  · rfl
@[simp] theorem rxCksum_rxa : (rxCksum b s).rxa = s.rxa := by
  unfold rxCksum
  split
  · split <;> rfl
  · rfl
@[simp] theorem rxCksum_line : (rxCksum b s).line = s.line := by
  unfold rxCksum
  split
  · split <;> rfl
  · rfl
@[simp] theorem rxCksum_res : (rxCksum b s).res = s.res := by
  unfold rxCksum
  split
  · split <;> rfl
  · rfl
@[simp] theorem rxCksum_seq : (rxCksum b s).seq = s.seq := by
  unfold rxCksum
  split
  · split <;> rfl
  · rfl
@[simp] theorem rxCksum_busy : (rxCksum b s).busy = s.busy := by
  unfold rxCksum
  split
  · split <;> rfl
  · rfl
@[simp] theorem rxCksum_ops : (rxCksum b s).ops = s.ops := by
  unfold rxCksum
  split
  · split <;> rfl
  · rfl
@[simp] theorem rxCksum_params : (rxCksum b s).params = s.params := by
  unfold rxCksum
  split
  · split <;> rfl
  · rfl
@[simp] theorem rxCksum_world : (rxCksum b s).world = s.world := by
  unfold rxCksum
  split
  · split <;> rfl
  · rfl

@[simp] theorem rxStep_txbuf : (rxStep b s).txbuf = s.txbuf := by
  unfold rxStep; split <;> simp
@[simp] theorem rxStep_tx : (rxStep b s).tx = s.tx := by
  unfold rxStep; split <;> simp
@[simp] theorem rxStep_line : (rxStep b s).line = s.line := by
  unfold rxStep; split <;> simp
@[simp] theorem rxStep_res : (rxStep b s).res = s.res := by
  unfold rxStep; split <;> simp
@[simp] theorem rxStep_seq : (rxStep b s).seq = s.seq := by
  unfold rxStep; split <;> simp
@[simp] theorem rxStep_busy : (rxStep b s).busy = s.busy := by
  unfold rxStep; split <;> simp
@[simp] theorem rxStep_ops : (rxStep b s).ops = s.ops := by
  unfold rxStep; split <;> simp
@[simp] theorem rxStep_params : (rxStep b s).params = s.params := by
  unfold rxStep; split <;> simp
@[simp] theorem rxStep_world : (rxStep b s).world = s.world := by
  unfold rxStep; split <;> simp

/-- A commit happens only in RX_CKSUM: in every other state RXBUF and the free-value counter stay. -/
theorem rxStep_rxbuf_of_ne (h : s.rx.rxs ≠ .cksum) :
    (rxStep b s).rxbuf = s.rxbuf ∧ (rxStep b s).draws = s.draws := by
  unfold rxStep; split <;> simp_all

/-! ## The transmit machine -/

/-- What a transmit state-step can do: it leaves a byte on XCH_OUT, writes the TX registers, may raise
TX_SUCCESS, and writes nothing else. -/
theorem txStep_cases :
    (txStep s = .fault .payloadIndexOutOfRange ∧ s.tx.txs = .data ∧
      Config.cap ≤ s.tx.txidx.toNat) ∨
    ∃ (c : Byte) (r : TxRegs) (x : FlagSet),
      (x = s.xf.xresult ∨ (x = withFlag .txSuccess s.xf.xresult ∧ s.tx.txs = .cksum)) ∧
      txStep s = .next { s with
        line := { s.line with xchOut := c }, tx := r, xf := { s.xf with xresult := x } } := by
  unfold txStep
  split
  · exact .inr ⟨_, s.tx, _, .inl rfl, rfl⟩
  · exact .inr ⟨_, _, _, .inl rfl, rfl⟩
  · exact .inr ⟨_, _, _, .inl rfl, rfl⟩
  · exact .inr ⟨_, _, _, .inl rfl, rfl⟩
  · exact .inr ⟨_, _, _, .inl rfl, rfl⟩
  · rename_i h
    unfold txData
    split
    · exact .inr ⟨_, _, _, .inl rfl, rfl⟩
    · exact .inl ⟨rfl, h, by omega⟩
  · rename_i h
    exact .inr ⟨_, _, _, .inr ⟨rfl, h⟩, rfl⟩

/-! ## State-steps as instructions -/

/-- The state-step of TXS is `txStep` with XFER's advance. -/
theorem exec_txInstr :
    exec (txInstr s.tx.txs) s = andThen (txStep s) fun t => .next (leaveTx t) := by
  cases h : s.tx.txs <;>
    simp [txInstr, exec, execStepTxIdle, execStepTxHeader, execStepTxLenHi, execStepTxLenLo,
      execStepTxType, execStepTxData, execStepTxCksum, fireTx, txStep, h]

/-- The state-step of RXS is `rxStep` on XCH_IN with XFER's advance. -/
theorem exec_rxInstr : exec (rxInstr s.rx.rxs) s = .next (xferRx s) := by
  cases h : s.rx.rxs <;>
    simp [rxInstr, exec, execStepRxIdle, execStepRxLenHi, execStepRxLenLo, execStepRxType,
      execStepRxData, execStepRxCksum, fireRx, xferRx, rxStep, h]

/-- A flag row raises its flag. -/
theorem exec_flagInstr (f : Flag) : exec (flagInstr f) s = raiseNow f s := by cases f <;> rfl

end Sys2Proof.Machine
end

