-- ==== Sys2Proof/Laws/Memory.lean ====
section
/-! SUPPORT. Payload memory: a read after a write gives the value written, a write leaves every other
index alone, every memory operation keeps the canonical form and the bound CAP; the buffer image. -/

namespace Sys2Proof.Machine

open Sys2Proof

/-! ## One byte -/

@[simp] theorem memGet_memPut_same (m : Memory) (a : Nat) (v : Byte) :
    memGet (memPut m a v) a = some v := by
  induction m with
  | nil => simp [memPut, memGet]
  | cons c r ih =>
    obtain ⟨b, w⟩ := c
    unfold memPut
    split
    · simp [memGet]
    · split
      · simp [memGet]
      · simp [memGet, *]

theorem memGet_memPut_of_ne (m : Memory) {a i : Nat} (v : Byte) (h : i ≠ a) :
    memGet (memPut m a v) i = memGet m i := by
  induction m with
  | nil => simp [memPut, memGet, h]
  | cons c r ih =>
    obtain ⟨b, w⟩ := c
    unfold memPut
    split
    · simp [memGet, h]
    · split
      · subst_vars; simp [memGet, h]
      · simp [memGet, ih]

@[simp] theorem byteAt_memPut_same (m : Memory) (fill a : Nat) (v : Byte) :
    byteAt (memPut m a v) fill a = v := by simp [byteAt]

theorem byteAt_memPut_of_ne (m : Memory) (fill : Nat) {a i : Nat} (v : Byte) (h : i ≠ a) :
    byteAt (memPut m a v) fill i = byteAt m fill i := by simp [byteAt, memGet_memPut_of_ne m v h]

/-! ## The canonical form -/

/-- In a canonical memory every address after the first is above it. -/
theorem memWf_cons {a : Nat} {v : Byte} {r : Memory} :
    memWf ((a, v) :: r) = true ↔ memWf r = true ∧ ∀ c ∈ r, a < c.1 := by
  induction r generalizing a v with
  | nil => simp [memWf]
  | cons c r ih =>
    obtain ⟨b, w⟩ := c
    simp only [memWf, Bool.and_eq_true, decide_eq_true_eq, List.mem_cons, forall_eq_or_imp]
    constructor
    · rintro ⟨h, hr⟩
      exact ⟨hr, h, fun c hc => h.trans ((ih.1 hr).2 c hc)⟩
    · rintro ⟨hr, h, _⟩
      exact ⟨h, hr⟩

theorem mem_memPut {m : Memory} {a : Nat} {v : Byte} {c : Host.Cell} (h : c ∈ memPut m a v) :
    c = (a, v) ∨ c ∈ m := by
  induction m with
  | nil => simpa [memPut] using h
  | cons d r ih =>
    obtain ⟨b, w⟩ := d
    unfold memPut at h
    split at h
    · simpa using h
    · split at h
      · rcases List.mem_cons.1 h with h | h
        · exact .inl h
        · exact .inr (List.mem_cons_of_mem _ h)
      · rcases List.mem_cons.1 h with h | h
        · exact .inr (by simp [h])
        · rcases ih h with h | h
          · exact .inl h
          · exact .inr (List.mem_cons_of_mem _ h)

theorem memPut_wf {m : Memory} (a : Nat) (v : Byte) (h : memWf m = true) :
    memWf (memPut m a v) = true := by
  induction m with
  | nil => simp [memPut, memWf]
  | cons d r ih =>
    obtain ⟨b, w⟩ := d
    have hd := memWf_cons.1 h
    unfold memPut
    split
    · rename_i hlt
      refine memWf_cons.2 ⟨h, ?_⟩
      rintro c hc
      rcases List.mem_cons.1 hc with rfl | hc
      · exact hlt
      · exact hlt.trans (hd.2 c hc)
    · split
      · rename_i heq
        subst heq
        exact memWf_cons.2 hd
      · rename_i hnlt hne
        refine memWf_cons.2 ⟨ih hd.1, fun c hc => ?_⟩
        rcases mem_memPut hc with rfl | hc
        · show b < a
          omega
        · exact hd.2 c hc

theorem memPut_inCap {m : Memory} {a : Nat} (v : Byte) (h : memInCap m = true)
    (ha : a < Config.cap) : memInCap (memPut m a v) = true := by
  simp only [memInCap, List.all_eq_true, decide_eq_true_eq] at *
  intro c hc
  rcases mem_memPut hc with rfl | hc
  · exact ha
  · exact h c hc

/-! ## Several bytes -/

theorem memPutAll_wf {m : Memory} (a : Nat) (vs : List Byte) (h : memWf m = true) :
    memWf (memPutAll m a vs) = true := by
  induction vs generalizing m a with
  | nil => exact h
  | cons v vs ih => exact ih _ (memPut_wf a v h)

theorem memPutAll_inCap {m : Memory} {a : Nat} {vs : List Byte} (h : memInCap m = true)
    (ha : a + vs.length ≤ Config.cap) : memInCap (memPutAll m a vs) = true := by
  induction vs generalizing m a with
  | nil => exact h
  | cons v vs ih =>
    simp only [List.length_cons] at ha
    exact ih (memPut_inCap v h (by omega)) (by omega)

/-- Writing consecutive bytes leaves every index outside them alone. -/
theorem byteAt_memPutAll_outside (m : Memory) (fill : Nat) {a i : Nat} (vs : List Byte)
    (h : i < a ∨ a + vs.length ≤ i) :
    byteAt (memPutAll m a vs) fill i = byteAt m fill i := by
  induction vs generalizing m a with
  | nil => rfl
  | cons v vs ih =>
    simp only [List.length_cons] at h
    rw [memPutAll, ih _ (by omega), byteAt_memPut_of_ne _ _ _ (by omega)]

/-- Writing consecutive bytes puts byte `j` at index `a + j`. -/
theorem byteAt_memPutAll_inside (m : Memory) (fill a : Nat) (vs : List Byte) (j : Nat)
    (h : j < vs.length) : byteAt (memPutAll m a vs) fill (a + j) = vs[j] := by
  induction vs generalizing m a j with
  | nil => simp at h
  | cons v vs ih =>
    cases j with
    | zero =>
      rw [memPutAll, byteAt_memPutAll_outside _ _ _ (by omega)]
      simp
    | succ j =>
      have := ih (memPut m a v) (a + 1) j (by simpa using h)
      rw [memPutAll, show a + (j + 1) = a + 1 + j by omega, this]
      simp

/-! ## The commit's copy -/

theorem memGet_map_range (f : Nat → Byte) (n i k : Nat) :
    memGet ((List.range' k n).map fun j => (j, f j)) i =
      if k ≤ i ∧ i < k + n then some (f i) else none := by
  induction n generalizing k with
  | zero => simp [memGet]
  | succ n ih =>
    simp only [List.range'_succ, List.map_cons, memGet]
    split
    · subst_vars; simp
    · rw [ih]
      split <;> split <;> first | rfl | omega

/-- The copy holds bytes 0 to n − 1 of the source and lists nothing else. -/
theorem memGet_copyPrefix (m : Memory) (fill n i : Nat) :
    memGet (copyPrefix m fill n) i = if i < n then some (byteAt m fill i) else none := by
  have h := memGet_map_range (byteAt m fill) n i 0
  simpa [copyPrefix, List.range_eq_range'] using h

theorem memWf_map_range (f : Nat → Byte) (k n : Nat) :
    memWf ((List.range' k n).map fun i => (i, f i)) = true := by
  induction n generalizing k with
  | zero => rfl
  | succ n ih =>
    simp only [List.range'_succ, List.map_cons]
    refine memWf_cons.2 ⟨ih (k + 1), fun c hc => ?_⟩
    simp only [List.mem_map, List.mem_range'_1] at hc
    obtain ⟨i, hi, rfl⟩ := hc
    show k < i
    omega

theorem copyPrefix_wf (m : Memory) (fill n : Nat) : memWf (copyPrefix m fill n) = true := by
  have := memWf_map_range (byteAt m fill) 0 n
  simpa [copyPrefix, List.range_eq_range'] using this

theorem copyPrefix_inCap (m : Memory) (fill : Nat) {n : Nat} (h : n ≤ Config.cap) :
    memInCap (copyPrefix m fill n) = true := by
  simp only [memInCap, copyPrefix, List.all_eq_true, decide_eq_true_eq, List.mem_map,
    List.mem_range]
  rintro c ⟨i, hi, rfl⟩
  show i < Config.cap
  omega

/-! ## The buffers' named writes -/

theorem stage_wf {i : Nat} {b : Byte} {a : Staging} (h : memWf a.payload = true) :
    memWf (stage i b a).payload = true := by
  unfold stage; split
  · exact memPut_wf i b h
  · exact h

theorem stage_inCap {i : Nat} {b : Byte} {a : Staging} (h : memInCap a.payload = true) :
    memInCap (stage i b a).payload = true := by
  unfold stage; split
  · exact memPut_inCap b h (by assumption)
  · exact h

theorem writeCommand_wf {id c0 c1 plen : Byte} {b : FrameBuffer} (h : memWf b.payload = true) :
    memWf (writeCommand id c0 c1 plen b).payload = true :=
  memPut_wf _ _ (memPut_wf _ _ (memPut_wf _ _ h))

theorem writeCommand_inCap {id c0 c1 plen : Byte} {b : FrameBuffer}
    (h : memInCap b.payload = true) : memInCap (writeCommand id c0 c1 plen b).payload = true :=
  memPut_inCap _ (memPut_inCap _ (memPut_inCap _ h (by decide)) (by decide)) (by decide)

/-- What SEND_COMMAND's header writes leave in each payload byte (spec/42_command.md R202). -/
theorem writeCommand_byte (id c0 c1 plen : Byte) (b : FrameBuffer) (i : Nat) :
    (writeCommand id c0 c1 plen b).byte i =
      if i = 0 then id else if i = 1 then c0 else if i = 2 then c1 else b.byte i := by
  unfold FrameBuffer.byte writeCommand
  dsimp only
  by_cases h2 : i = 2
  · subst h2; simp
  · rw [byteAt_memPut_of_ne _ _ _ h2]
    by_cases h1 : i = 1
    · subst h1; simp
    · rw [byteAt_memPut_of_ne _ _ _ h1]
      by_cases h0 : i = 0
      · subst h0; simp
      · rw [byteAt_memPut_of_ne _ _ _ h0]; simp [h0, h1, h2]

/-! ## The buffer image (spec/20_memory.md R61) -/

theorem joinBytes_hi_lo (h : Half) : joinBytes (hiByte h) (loByte h) = h := by
  unfold joinBytes hiByte loByte
  apply BitVec.eq_of_toNat_eq
  simp only [BitVec.toNat_append, BitVec.extractLsb'_toNat, Nat.shiftRight_zero]
  have := h.isLt
  rw [Nat.shiftRight_eq_div_pow, ← Nat.shiftLeft_add_eq_or_of_lt (by omega),
    Nat.shiftLeft_eq]
  omega

@[simp] theorem hiByte_joinBytes (a b : Byte) : hiByte (joinBytes a b) = a := by
  unfold joinBytes hiByte
  apply BitVec.eq_of_toNat_eq
  have ha := a.isLt
  have hb := b.isLt
  simp only [BitVec.extractLsb'_toNat, BitVec.toNat_append, Nat.shiftRight_eq_div_pow]
  rw [← Nat.shiftLeft_add_eq_or_of_lt hb, Nat.shiftLeft_eq]
  omega

@[simp] theorem loByte_joinBytes (a b : Byte) : loByte (joinBytes a b) = b := by
  unfold joinBytes loByte
  apply BitVec.eq_of_toNat_eq
  have ha := a.isLt
  have hb := b.isLt
  simp only [BitVec.extractLsb'_toNat, BitVec.toNat_append, Nat.shiftRight_zero]
  rw [← Nat.shiftLeft_add_eq_or_of_lt hb, Nat.shiftLeft_eq]
  omega

theorem imageByte_setImageByte_same (b : FrameBuffer) (a : Nat) (v : Byte) :
    imageByte (setImageByte b a v) a = v := by
  match a with
  | 0 => simp [setImageByte, imageByte]
  | 1 => simp [setImageByte, imageByte]
  | 2 => rfl
  | i + 3 => simp [setImageByte, imageByte, FrameBuffer.byte]

theorem imageByte_setImageByte_of_ne (b : FrameBuffer) {a i : Nat} (v : Byte) (h : i ≠ a) :
    imageByte (setImageByte b a v) i = imageByte b i := by
  match a, i with
  | 0, 0 | 1, 1 | 2, 2 => exact absurd rfl h
  | 0, 1 => simp [setImageByte, imageByte]
  | 1, 0 => simp [setImageByte, imageByte]
  | 0, 2 | 1, 2 | 2, 0 | 2, 1 => rfl
  | 0, _ + 3 | 1, _ + 3 | 2, _ + 3 => rfl
  | _ + 3, 0 | _ + 3, 1 | _ + 3, 2 => rfl
  | a + 3, i + 3 =>
    exact byteAt_memPut_of_ne _ _ _ (by omega)

theorem setImageByte_wf {b : FrameBuffer} (a : Nat) (v : Byte) (h : memWf b.payload = true) :
    memWf (setImageByte b a v).payload = true := by
  match a with
  | 0 | 1 | 2 => exact h
  | i + 3 => exact memPut_wf i v h

theorem setImageByte_inCap {b : FrameBuffer} {a : Nat} (v : Byte)
    (h : memInCap b.payload = true) (ha : a < imageSize) :
    memInCap (setImageByte b a v).payload = true := by
  match a with
  | 0 | 1 | 2 => exact h
  | i + 3 => exact memPut_inCap v h (by unfold imageSize at ha; omega)

theorem memWrite_wf {b : FrameBuffer} (a : Nat) (vs : List Byte) (h : memWf b.payload = true) :
    memWf (memWrite b a vs).payload = true := by
  induction vs generalizing b a with
  | nil => exact h
  | cons v vs ih => exact ih _ (setImageByte_wf a v h)

theorem memWrite_inCap {b : FrameBuffer} {a : Nat} {vs : List Byte}
    (h : memInCap b.payload = true) (ha : a + vs.length ≤ imageSize) :
    memInCap (memWrite b a vs).payload = true := by
  induction vs generalizing b a with
  | nil => exact h
  | cons v vs ih =>
    simp only [List.length_cons] at ha
    exact ih (setImageByte_inCap v h (by omega)) (by omega)

/-- The memories of a machine right after reset are canonical. -/
theorem reset_memories_wf :
    memWf State.reset.txbuf.payload = true ∧ memWf State.reset.rxbuf.payload = true ∧
      memWf State.reset.rxa.payload = true := ⟨rfl, rfl, rfl⟩

end Sys2Proof.Machine
end

