-- ==== Sys2Proof/Laws/Step.lean ====
section
/-! SUPPORT. What a step is: the inversion of `andThen`, host operations as starts and resumptions, the
frame row as a run of exchange steps, and the case analysis of `step`. -/

namespace Sys2Proof.Machine

open Sys2Proof

variable {s t : State}

/-! ## Sequencing -/

@[simp] theorem andThen_next (f : State → Out) : andThen (.next s) f = f s := rfl
@[simp] theorem andThen_fault (r : Fault) (f : State → Out) : andThen (.fault r) f = .fault r := rfl
@[simp] theorem andThen_refused (r : Refusal) (f : State → Out) :
    andThen (.refused r) f = .refused r := rfl

/-- A sequence answers a next state exactly when both halves do. -/
theorem andThen_eq_next {o : Out} {f : State → Out} :
    andThen o f = .next t ↔ ∃ u, o = .next u ∧ f u = .next t := by
  cases o <;> simp [andThen]

/-- A sequence faults when its first half does, or its second. -/
theorem andThen_eq_fault {o : Out} {f : State → Out} {r : Fault} :
    andThen o f = .fault r ↔ o = .fault r ∨ ∃ u, o = .next u ∧ f u = .fault r := by
  cases o <;> simp [andThen]

/-! ## Host operations -/

/-- The first activation of a host operation belongs to it. -/
def Act.isFirst : Act → Bool
  | .xfer .start | .send _ _ _ .start | .recv .start | .doCmd _ _ _ .start | .setPower _
  | .waitPower _ 0 | .waitAttn 0 | .pulse .start | .configure .start => true
  | _ => false

/-- A host operation with BUSY = 0. -/
theorem hostOp_idle (a : Act) (hb : s.busy = false) :
    hostOp a s = move a { s with busy := true, ops := [a] } := by
  unfold hostOp
  rw [if_neg (by simp [hb])]
  rfl

/-- A host operation with BUSY = 1. -/
theorem hostOp_busy (a : Act) (hb : s.busy = true) :
    hostOp a s =
      if current s = some a.instr then resume s else .refused .requestWhileBusy := by
  unfold hostOp
  rw [if_pos hb]

/-- The meaning of an operation in progress does not depend on its position. -/
theorem exec_instr (a : Act) : ∃ b : Act, b.instr = a.instr ∧ b.isFirst = true ∧
    ∀ s, exec a.instr s = hostOp b s := by
  cases a with
  | xfer p => exact ⟨.xfer .start, rfl, rfl, fun _ => rfl⟩
  | send c0 c1 n p => exact ⟨.send c0 c1 n .start, rfl, rfl, fun _ => rfl⟩
  | recv p => exact ⟨.recv .start, rfl, rfl, fun _ => rfl⟩
  | doCmd c0 c1 n p => exact ⟨.doCmd c0 c1 n .start, rfl, rfl, fun _ => rfl⟩
  | setPower st => exact ⟨.setPower st, rfl, rfl, fun _ => rfl⟩
  | waitPower st n => exact ⟨.waitPower st 0, rfl, rfl, fun _ => rfl⟩
  | waitAttn n => exact ⟨.waitAttn 0, rfl, rfl, fun _ => rfl⟩
  | pulse p => exact ⟨.pulse .start, rfl, rfl, fun _ => rfl⟩
  | configure p => exact ⟨.configure .start, rfl, rfl, fun _ => rfl⟩

/-- With BUSY = 0 a host operation is accepted and makes its first micro-step. -/
theorem exec_idle (a : Act) (hb : s.busy = false) :
    ∃ b : Act, b.instr = a.instr ∧ b.isFirst = true ∧
      exec a.instr s = move b { s with busy := true, ops := [b] } := by
  obtain ⟨b, h1, h2, h3⟩ := exec_instr a
  exact ⟨b, h1, h2, by rw [h3, hostOp_idle b hb]⟩

/-- With BUSY = 1 the operation in progress goes on, and any other host operation is refused. -/
theorem exec_busy (a : Act) (hb : s.busy = true) :
    exec a.instr s =
      if current s = some a.instr then resume s else .refused .requestWhileBusy := by
  obtain ⟨b, h1, _, h3⟩ := exec_instr a
  rw [h3, hostOp_busy b hb, h1]

/-- The operation in progress goes on by one micro-step. -/
theorem exec_current {i : Instr} (hb : s.busy = true) (hc : current s = some i) :
    exec i s = resume s := by
  obtain ⟨a, _, rfl⟩ := Option.map_eq_some_iff.1 hc
  rw [exec_busy a hb, if_pos hc]

/-- An operation is in progress whenever OPS is not empty. -/
theorem exists_current {a : Act} {r : List Act} (ho : s.ops = a :: r) :
    ∃ i, current s = some i := by
  unfold current
  rw [ho, List.getLast?_eq_some_getLast (by simp)]
  exact ⟨_, rfl⟩

/-! ## The frame rows -/

/-- Every frame instruction is the reception of its bytes. -/
theorem exec_mkFrame (w : Half) (ty : Byte) (payload : List Byte) (ck : Byte) (s : State) :
    exec (mkFrame w ty payload ck) s = receiveBytes (frameBytes w ty payload ck) s := by
  unfold mkFrame
  repeat' split
  all_goals subst_vars; rfl

/-- The bytes a decoded frame was read from. -/
theorem decodeFrame_bytes {bs rest : List Byte} {i : Instr}
    (h : decodeFrame bs = .ok (i, rest)) :
    ∃ w ty payload ck, i = mkFrame w ty payload ck ∧ bs = frameBytes w ty payload ck ++ rest := by
  match bs, h with
  | [], h => simp [decodeFrame] at h
  | [_], h | [_, _], h | [_, _, _], h =>
    simp only [decodeFrame] at h
    split at h <;> simp at h
  | d :: wh :: wl :: ty :: body, h =>
    simp only [decodeFrame] at h
    split at h
    · rename_i hd
      unfold takeBody at h
      split at h
      · simp at h
      · rename_i hb
        split at hb
        · simp at hb
        · rename_i hdrop
          simp only [Option.some.injEq, Prod.mk.injEq] at hb
          obtain ⟨rfl, rfl, rfl⟩ := hb
          simp only [Except.ok.injEq, Prod.mk.injEq] at h
          obtain ⟨rfl, rfl⟩ := h
          refine ⟨_, _, _, _, rfl, ?_⟩
          have hb := List.take_append_drop (dataCount (joinBytes wh wl)) body
          rw [hdrop] at hb
          simp [frameBytes, hd, hb]
    · simp at h

/-- Taking a frame from the front of the wire is a run of exchange steps, one a byte. -/
theorem exec_fetchFrame {i : Instr} (h : fetchFrame s = some (i, t)) :
    ∃ n, exec i t = exchangeRounds n s ∧
      n = s.world.inbound.length - t.world.inbound.length ∧ 0 < n ∧
      s.world.grain = .frame := by
  unfold fetchFrame at h
  split at h
  · simp at h
  · rename_i hg
    split at h
    · rename_i hd
      simp only [Option.some.injEq, Prod.mk.injEq] at h
      obtain ⟨rfl, rfl⟩ := h
      obtain ⟨w, ty, payload, ck, rfl, hb⟩ := decodeFrame_bytes hd
      refine ⟨(frameBytes w ty payload ck).length, ?_, ?_, by simp [frameBytes], hg⟩
      · rw [exec_mkFrame]
        unfold receiveBytes
        dsimp only
        rw [← hb]
      · simp [hb]
    · simp at h

/-! ## The step -/

/-- With nothing listed the host does nothing. -/
theorem hostTurn_none (h : s.world.host = []) : hostTurn s = none := by simp [hostTurn, h]

/-- With a `pass` at the front the host does nothing. -/
theorem hostTurn_pass {r : List HostAct} (h : s.world.host = .pass :: r) : hostTurn s = none := by
  simp [hostTurn, h]

/-- The instruction fetched while an operation runs makes one micro-step of it, or takes a whole frame
from the wire. -/
theorem fetchBusy_runs (hb : s.busy = true) (ho : s.ops ≠ []) :
    ∃ j u, fetchBusy s = some (j, u) ∧
      (exec j u = resume s ∨
        ∃ n, s.ops.head? = some (.xfer .loop) ∧ loopCond s = true ∧ s.world.grain = .frame ∧
          0 < n ∧ exec j u = exchangeRounds n s) := by
  obtain ⟨a, r, hop⟩ := List.exists_cons_of_ne_nil ho
  obtain ⟨i, hi⟩ := exists_current hop
  have hop' : fetchBusy s = fetchOp s →
      ∃ j u, fetchBusy s = some (j, u) ∧ exec j u = resume s :=
    fun h => ⟨i, s, by rw [h, fetchOp, hi]; rfl, exec_current hb hi⟩
  have hres : resume s = move a s := by unfold resume; rw [hop]
  have micro : (∃ j u, fetchBusy s = some (j, u) ∧ exec j u = resume s) →
      ∃ j u, fetchBusy s = some (j, u) ∧
        (exec j u = resume s ∨
          ∃ n, s.ops.head? = some (.xfer .loop) ∧ loopCond s = true ∧ s.world.grain = .frame ∧
            0 < n ∧ exec j u = exchangeRounds n s) :=
    fun ⟨j, u, h1, h2⟩ => ⟨j, u, h1, .inl h2⟩
  match a, hop, hres with
  | .xfer .loop, hop, hres =>
    by_cases hc : loopCond s = true
    · cases hf : fetchFrame s with
      | some p =>
        obtain ⟨j, u⟩ := p
        obtain ⟨n, h1, _, hn, hg⟩ := exec_fetchFrame hf
        exact ⟨j, u, by simp [fetchBusy, hop, hc, hf],
          .inr ⟨n, by rw [hop]; rfl, hc, hg, hn, h1⟩⟩
      | none =>
        refine micro ⟨txInstr s.tx.txs, s, by simp [fetchBusy, hop, hc, hf], ?_⟩
        rw [exec_txInstr, hres]
        simp only [move, xferMove, xferLoop, hc, if_true]
    · exact micro (hop' (by simp [fetchBusy, hop, hc]))
  | .xfer .rx, hop, hres =>
    refine micro ⟨rxInstr s.rx.rxs, s, by unfold fetchBusy; rw [hop], ?_⟩
    rw [exec_rxInstr, hres]
    rfl
  | .xfer (.raise f), hop, hres =>
    refine micro ⟨flagInstr f, s, by unfold fetchBusy; rw [hop], ?_⟩
    rw [exec_flagInstr, hres]
    rfl
  | .xfer .start, hop, _ | .xfer .selDelay, hop, _ | .xfer .exch, hop, _ | .xfer (.after _), hop, _
  | .xfer .byteDelay, hop, _
  | .xfer .finish, hop, _ | .xfer .ret, hop, _ | .send .., hop, _ | .recv _, hop, _
  | .doCmd .., hop, _ | .setPower _, hop, _ | .waitPower _ _, hop, _ | .waitAttn _, hop, _
  | .pulse _, hop, _ | .configure _, hop, _ =>
    exact micro (hop' (by unfold fetchBusy; rw [hop]))

/-- While an operation runs and the host does nothing, a step is one micro-step of the operation, or
a whole frame taken from the wire, with the host's `pass` used up. -/
theorem step_busy (hb : s.busy = true) (ho : s.ops ≠ []) (hh : hostTurn s = none) :
    step s = resume (dropPass s) ∨
      ∃ n, s.ops.head? = some (.xfer .loop) ∧ loopCond s = true ∧ s.world.grain = .frame ∧
        0 < n ∧ step s = exchangeRounds n (dropPass s) := by
  obtain ⟨j, u, hf, h⟩ := fetchBusy_runs (s := dropPass s) (by simp [hb]) (by simpa using ho)
  have hstep : step s = exec j u := by
    unfold step fetch
    rw [hh, if_pos hb, hf]
  rw [hstep]
  simpa [loopCond] using h

/-- With the wire taken a byte at a time, a step of a running operation is one micro-step. -/
theorem step_eq_resume (hb : s.busy = true) (ho : s.ops ≠ []) (hh : s.world.host = [])
    (hg : s.world.grain = .byte) : step s = resume s := by
  rcases step_busy hb ho (hostTurn_none hh) with h | ⟨n, _, _, h, _⟩
  · rw [h, dropPass_nil s hh]
  · simp [hg] at h

/-- The same when the host lets the step pass: its action is used up. -/
theorem step_pass {r : List HostAct} (hb : s.busy = true) (ho : s.ops ≠ [])
    (hh : s.world.host = .pass :: r) (hg : s.world.grain = .byte) :
    step s = resume { s with world := { s.world with host := r } } := by
  rcases step_busy hb ho (hostTurn_pass hh) with h | ⟨n, _, _, h, _⟩
  · rw [h, dropPass_pass s hh]
  · simp [hg] at h

/-- With BUSY = 0 and a request at the front, the step runs the decoded request. -/
theorem step_request {w : ReqWord} {r : List HostAct} (hb : s.busy = false)
    (hh : s.world.host = .request w :: r) : step s = exec (decodeRequest w) (popHost s) := by
  simp [step, hostTurn, hh, hb, fetch]

/-- A step is the host's turn, a fetched request, a micro-step, a whole frame, or nothing. -/
theorem step_cases (s : State) :
    (∃ o, hostTurn s = some o ∧ step s = o) ∨
    (s.busy = false ∧ ∃ w r, s.world.host = .request w :: r ∧
      step s = exec (decodeRequest w) (popHost s)) ∨
    (s.busy = true ∧ s.ops ≠ [] ∧ step s = resume (dropPass s)) ∨
    (s.busy = true ∧ (∃ n, s.ops.head? = some (.xfer .loop) ∧ loopCond s = true ∧
      0 < n ∧ step s = exchangeRounds n (dropPass s))) ∨
    ((s.busy = true → s.ops = []) ∧ step s = .next { dropPass s with busy := false }) := by
  cases hh : hostTurn s with
  | some o => exact .inl ⟨o, rfl, by simp [step, hh]⟩
  | none =>
    right
    by_cases hb : s.busy = true
    · right
      by_cases ho : s.ops = []
      · refine .inr (.inr ⟨fun _ => ho, ?_⟩)
        simp [step, hh, fetch, hb, fetchBusy, ho, fetchOp, current, idleStep]
      · rcases step_busy hb ho hh with h | ⟨n, h1, h2, _, h3, h4⟩
        · exact .inl ⟨hb, ho, h⟩
        · exact .inr (.inl ⟨hb, n, h1, h2, h3, h4⟩)
    · simp only [Bool.not_eq_true] at hb
      cases hw : s.world.host with
      | nil =>
        refine .inr (.inr (.inr ⟨fun h => by simp [hb] at h, ?_⟩))
        simp [step, hh, fetch, hb, hw, idleStep]
      | cons a r =>
        cases a with
        | request w => exact .inl ⟨hb, w, r, rfl, step_request hb hw⟩
        | awaitIdle => simp [hostTurn, hw, hb] at hh
        | pass =>
          refine .inr (.inr (.inr ⟨fun h => by simp [hb] at h, ?_⟩))
          simp [step, hh, fetch, hb, hw, idleStep]
        | write a v => simp [hostTurn, hw] at hh
        | read b a n => simp [hostTurn, hw] at hh
        | readReg q => simp [hostTurn, hw] at hh
        | reset => simp [hostTurn, hw] at hh

/-- What the host's turn does when it answers a next state: it waits for BUSY = 0, writes the TXBUF
image, reads, or resets the block. -/
theorem hostTurn_next (h : hostTurn s = some (.next t)) :
    (s.busy = false ∧ t = popHost s) ∨
    (s.busy = false ∧ ∃ a bytes, a + bytes.length ≤ imageSize ∧
      t = { popHost s with txbuf := memWrite s.txbuf a bytes }) ∨
    (∃ w : World, t = { s with world := w }) ∨
    t = blockReset (popHost s) := by
  unfold hostTurn at h
  split at h
  · simp at h
  · split at h <;> simp at h
  · split at h <;> simp at h
    rename_i hb
    exact .inl ⟨by simpa using hb, h.symm⟩
  · simp at h
  · rename_i a bytes _ _
    simp only [Option.some.injEq] at h
    unfold hostWrite at h
    split at h
    · simp at h
    · rename_i hb
      split at h
      · rename_i ha
        simp only [Host.Outcome.next.injEq] at h
        exact .inr (.inl ⟨by simpa using hb, a, bytes, ha, h.symm⟩)
      · simp at h
  · simp only [Option.some.injEq] at h
    unfold hostRead at h
    split at h
    · simp at h
    · split at h
      · simp only [Host.Outcome.next.injEq] at h
        exact .inr (.inr (.inl ⟨_, h.symm⟩))
      · simp at h
  · simp only [Option.some.injEq] at h
    unfold hostReadReg at h
    split at h
    · simp at h
    · simp only [Host.Outcome.next.injEq] at h
      exact .inr (.inr (.inl ⟨_, h.symm⟩))
  · simp only [Option.some.injEq, Host.Outcome.next.injEq] at h
    exact .inr (.inr (.inr h.symm))

/-- The host's turn never faults. -/
theorem hostTurn_no_fault (r : Fault) : hostTurn s ≠ some (.fault r) := by
  unfold hostTurn
  split
  · simp
  · split <;> simp
  · split <;> simp
  · simp
  · unfold hostWrite; split
    · simp
    · split <;> simp
  · unfold hostRead; split
    · simp
    · split <;> simp
  · unfold hostReadReg; split <;> simp
  · simp

end Sys2Proof.Machine
end

