-- ==== Sys2Proof/Laws/Operands.lean ====
section
/-! SUPPORT. What the size tests, the shape tests and the flag tests say, in numbers, and what a running
operation is: `exec` of it makes one micro-step. -/

namespace Sys2Proof.Machine

open Sys2Proof

/-! ## Size tests -/

theorem badSize_iff (len : Half) : badSize len = true ↔ len.toNat = 0 ∨ 64 ≤ len.toNat := by
  unfold badSize
  rw [Bool.or_eq_true, decide_eq_true_eq, decide_eq_true_eq]
  rfl

theorem badSize_eq_false_iff (len : Half) :
    badSize len = false ↔ 0 < len.toNat ∧ len.toNat < 64 := by
  rw [← Bool.not_eq_true, badSize_iff]
  omega

theorem tooLong_iff (n : Half) : tooLong n = true ↔ 64 ≤ n.toNat := by
  unfold tooLong
  rw [decide_eq_true_eq]
  rfl

theorem tooLong_eq_false_iff (n : Half) : tooLong n = false ↔ n.toNat < 64 := by
  rw [← Bool.not_eq_true, tooLong_iff]
  omega

/-- RXN is RXW − 1 in natural numbers. -/
theorem dataLength_toNat (w : Half) : (dataLength w).toNat = w.toNat - 1 := by
  have hw := w.isLt
  unfold dataLength
  split
  · rename_i h
    subst h
    rfl
  · rename_i h
    bv_omega

theorem dataLength_eq (w : Half) : dataLength w = BitVec.ofNat 16 (w.toNat - 1) := by
  apply BitVec.eq_of_toNat_eq
  have hw := w.isLt
  rw [dataLength_toNat, BitVec.toNat_ofNat, Nat.mod_eq_of_lt (by omega)]

/-- The wire length of a length below CAP. -/
theorem wireLength_toNat {len : Half} (h : len.toNat < 64) : (wireLength len).toNat = len.toNat + 1 := by
  unfold wireLength
  bv_omega

/-- The saturating counter in natural numbers. -/
theorem satInc_toNat (h : Half) : (satInc h).toNat = min (h.toNat + 1) 65535 := by
  have hh := h.isLt
  unfold satInc
  split
  · rename_i e
    subst e
    rfl
  · rename_i e
    bv_omega

/-! ## Shape tests -/

theorem isResponse_iff (b : FrameBuffer) :
    isResponse b = true ↔ b.frameType = 0x88#8 ∧ 3 < b.length.toNat := by
  unfold isResponse
  rw [Bool.and_eq_true, beq_iff_eq, decide_eq_true_eq]
  rfl

theorem isModemStatus_iff (b : FrameBuffer) :
    isModemStatus b = true ↔ b.frameType = 0x8A#8 ∧ 0 < b.length.toNat := by
  unfold isModemStatus
  rw [Bool.and_eq_true, beq_iff_eq, decide_eq_true_eq]
  rfl

/-! ## Flag tests -/

theorem hasFlag_iff (f : Flag) (r : FlagSet) : hasFlag f r = true ↔ r &&& flagCode f ≠ 0 := by
  simp [hasFlag]

theorem hasFlag_eq_false_iff (f : Flag) (r : FlagSet) :
    hasFlag f r = false ↔ r &&& flagCode f = 0 := by
  simp [hasFlag]

theorem harvestGood_iff (s : State) :
    harvestGood s = true ↔ s.res.result &&& 0x004#9 ≠ 0 ∧ s.rxbuf.frameType = 0x8A#8 ∧
      0 < s.rxbuf.length.toNat ∧ s.rxbuf.byte 0 = 0x00#8 := by
  unfold harvestGood
  rw [Bool.and_eq_true, Bool.and_eq_true, hasFlag_iff, isModemStatus_iff, decide_eq_true_eq]
  simp only [and_assoc]
  rfl

theorem pollLimitReached_iff (s : State) (n : Nat) :
    pollLimitReached s n = true ↔ s.params.pollLimit = some n := by
  simp [pollLimitReached]

/-- The loop goes on unless both machines are idle and RETRY is 0. -/
theorem loopCond_eq_false_iff (s : State) :
    loopCond s = false ↔ s.tx.txs = .idle ∧ s.rx.rxs = .idle ∧ s.xf.retry = 0 := by
  simp [loopCond, and_assoc]

theorem loopCond_iff (s : State) :
    loopCond s = true ↔ s.tx.txs ≠ .idle ∨ s.rx.rxs ≠ .idle ∨ 0 < s.xf.retry := by
  simp [loopCond, or_assoc]

/-! ## Calls on the environment -/

/-- With every call answered nothing is counted. -/
theorem countCall_none {s : State} (h : s.world.answers = none) : countCall s = s := by
  obtain ⟨_, _, _, _, _, _, _, _, _, _, _, _, w, _⟩ := s
  obtain ⟨⟩ := w
  simp only at h
  subst h
  rfl

/-- A call that is answered. -/
theorem calling_answered {f : State → State} {s : State} (h : s.world.answers ≠ some 0) :
    calling f s = f (countCall s) := by
  simp [calling, h]

/-- With every call answered a micro-step that calls is the micro-step. -/
theorem calling_none {f : State → State} {s : State} (h : s.world.answers = none) :
    calling f s = f s := by
  rw [calling_answered (by rw [h]; simp), countCall_none h]

/-- A call that never returns: the block has no step. -/
theorem calling_hung {f : State → State} {s : State} (h : s.world.answers = some 0) :
    calling f s = s := by
  simp [calling, h]

/-! ## Running operations -/

variable {s t : State} {i : Instr} {a : Act} {r : List Act}

/-- The operation in progress makes one micro-step of its innermost activation. -/
theorem exec_running (h : Running s i a r) : exec i s = move a s := by
  rw [exec_current h.1 h.2.2]
  unfold resume
  rw [h.2.1]

/-- BUSY when the innermost activation ends. -/
theorem Running.busy_finish (h : Running s i a r) :
    (if r = [] then false else s.busy) = busyAfter r := by
  rw [h.1]
  cases r <;> rfl

/-- A run goes on from the state its first step answers. -/
theorem steps_next {n : Nat} (h : step s = .next t) : steps (n + 1) s = steps n t := by
  rw [steps, h, andThen_next]

/-- A run in two parts. -/
theorem steps_add (m n : Nat) (s : State) : steps (m + n) s = andThen (steps m s) (steps n) := by
  induction m generalizing s with
  | zero => rw [Nat.zero_add, steps, andThen_next]
  | succ m ih =>
    rw [Nat.succ_add, steps, steps]
    cases step s with
    | next u => rw [andThen_next, andThen_next, ih]
    | fault f => rfl
    | refused f => rfl

/-- One step of a host's run, for any machine. -/
theorem run_next_of (M : Host.Core) (n : Nat) (s t : M.State) (h : M.step s = .next t) :
    M.run (n + 1) s = M.run n t := by
  simp only [Host.Core.run, h]

theorem run_fault_of (M : Host.Core) (n : Nat) (s : M.State) (f : M.Fault)
    (h : M.step s = .fault f) : M.run (n + 1) s = .fault f := by
  simp only [Host.Core.run, h]

theorem run_refused_of (M : Host.Core) (n : Nat) (s : M.State) (f : M.Refusal)
    (h : M.step s = .refused f) : M.run (n + 1) s = .refused f := by
  simp only [Host.Core.run, h]

/-- `steps` is the host's run of the machine. -/
theorem steps_eq_run (n : Nat) (s : State) : steps n s = Host.Core.run core n s := by
  induction n generalizing s with
  | zero => rfl
  | succ n ih =>
    cases h : step s with
    | next u => rw [steps_next h, ih u]; exact (run_next_of core n s u h).symm
    | fault f => rw [steps, h]; exact (run_fault_of core n s f h).symm
    | refused f => rw [steps, h]; exact (run_refused_of core n s f h).symm

end Sys2Proof.Machine
end

