-- ==== Sys2Proof/Laws/PerInstr.lean ====
section
/-! SUPPORT. The family CodeSize: the code of a well-formed instruction has the size the spec gives it:
32 bits for a host request word (spec/30_encoding.md R104), 3 bits for a state (spec/10_state.md R27,
R28), 9 bits for a flag (R110), max(W, 1) + 4 bytes for a frame (R97, R99). -/

namespace Sys2Proof.Laws.CodeSize

open Sys2Proof

/-- The size of a code in bits. -/
def bits : Code → Nat
  | .request _ => 32
  | .wire bytes => 8 * bytes.length
  | .txState _ => 3
  | .rxState _ => 3
  | .flag _ => 9

/-- The size the spec gives a frame of wire length `w`, in bytes. -/
def frameSize (w : Half) : Nat := max w.toNat 1 + 4

/-- The size the spec gives an instruction's code, in bits. -/
def specBits : Instr → Nat
  | .frameGeneric w .. | .frameAtCommand w .. | .frameAtResponse w .. | .frameModemStatus w ..
  | .frameTxRequest w .. | .frameRxIndication w .. => 8 * frameSize w
  | .xfer | .sendCommand .. | .receiveResponse | .doCommand .. | .setPower _ | .waitPower _
  | .waitAttn | .resetPulse | .configure
  | .reserved0 | .reservedA | .reservedB | .reservedC | .reservedD | .reservedE | .reservedF => 32
  | .stepTxIdle | .stepTxHeader | .stepTxLenHi | .stepTxLenLo | .stepTxType | .stepTxData
  | .stepTxCksum
  | .stepRxIdle | .stepRxLenHi | .stepRxLenLo | .stepRxType | .stepRxData | .stepRxCksum => 3
  | .flagSizeError | .flagTxSuccess | .flagRxSuccess | .flagNoData | .flagRxTooLong
  | .flagBadChecksum | .flagWrongFrame | .flagCmdRejected | .flagPollTimeout => 9

/-- A well-formed instruction's code has the spec's size. -/
def Statement (i : Instr) : Prop := i.wf = true → bits (encode i) = specBits i

/-- The size of a frame's bytes. -/
theorem frameBytes_bits {w : Half} {t : Byte} {payload : List Byte} {ck : Byte}
    (h : payloadFits w payload = true) :
    bits (.wire (frameBytes w t payload ck)) = 8 * frameSize w := by
  simp only [payloadFits, beq_iff_eq] at h
  simp only [bits, frameBytes, frameSize, List.length_cons, List.length_append, List.length_nil, h]
  omega

theorem xfer : Statement .xfer := fun _ => rfl
theorem sendCommand (c0 c1 plen : Byte) : Statement (.sendCommand c0 c1 plen) := fun _ => rfl
theorem receiveResponse : Statement .receiveResponse := fun _ => rfl
theorem doCommand (c0 c1 plen : Byte) : Statement (.doCommand c0 c1 plen) := fun _ => rfl
theorem setPower (st : Power) : Statement (.setPower st) := fun _ => rfl
theorem waitPower (st : Power) : Statement (.waitPower st) := fun _ => rfl
theorem waitAttn : Statement .waitAttn := fun _ => rfl
theorem resetPulse : Statement .resetPulse := fun _ => rfl
theorem configure : Statement .configure := fun _ => rfl
theorem reserved0 : Statement .reserved0 := fun _ => rfl
theorem reservedA : Statement .reservedA := fun _ => rfl
theorem reservedB : Statement .reservedB := fun _ => rfl
theorem reservedC : Statement .reservedC := fun _ => rfl
theorem reservedD : Statement .reservedD := fun _ => rfl
theorem reservedE : Statement .reservedE := fun _ => rfl
theorem reservedF : Statement .reservedF := fun _ => rfl
theorem frameGeneric (w : Half) (t : Byte) (payload : List Byte) (ck : Byte) :
    Statement (.frameGeneric w t payload ck) := fun h =>
  frameBytes_bits (by simp only [Instr.wf, Bool.and_eq_true] at h; exact h.1)
theorem frameAtCommand (w : Half) (payload : List Byte) (ck : Byte) :
    Statement (.frameAtCommand w payload ck) := fun h => frameBytes_bits h
theorem frameAtResponse (w : Half) (payload : List Byte) (ck : Byte) :
    Statement (.frameAtResponse w payload ck) := fun h => frameBytes_bits h
theorem frameModemStatus (w : Half) (payload : List Byte) (ck : Byte) :
    Statement (.frameModemStatus w payload ck) := fun h => frameBytes_bits h
theorem frameTxRequest (w : Half) (payload : List Byte) (ck : Byte) :
    Statement (.frameTxRequest w payload ck) := fun h => frameBytes_bits h
theorem frameRxIndication (w : Half) (payload : List Byte) (ck : Byte) :
    Statement (.frameRxIndication w payload ck) := fun h => frameBytes_bits h
theorem stepTxIdle : Statement .stepTxIdle := fun _ => rfl
theorem stepTxHeader : Statement .stepTxHeader := fun _ => rfl
theorem stepTxLenHi : Statement .stepTxLenHi := fun _ => rfl
theorem stepTxLenLo : Statement .stepTxLenLo := fun _ => rfl
theorem stepTxType : Statement .stepTxType := fun _ => rfl
theorem stepTxData : Statement .stepTxData := fun _ => rfl
theorem stepTxCksum : Statement .stepTxCksum := fun _ => rfl
theorem stepRxIdle : Statement .stepRxIdle := fun _ => rfl
theorem stepRxLenHi : Statement .stepRxLenHi := fun _ => rfl
theorem stepRxLenLo : Statement .stepRxLenLo := fun _ => rfl
theorem stepRxType : Statement .stepRxType := fun _ => rfl
theorem stepRxData : Statement .stepRxData := fun _ => rfl
theorem stepRxCksum : Statement .stepRxCksum := fun _ => rfl
theorem flagSizeError : Statement .flagSizeError := fun _ => rfl
theorem flagTxSuccess : Statement .flagTxSuccess := fun _ => rfl
theorem flagRxSuccess : Statement .flagRxSuccess := fun _ => rfl
theorem flagNoData : Statement .flagNoData := fun _ => rfl
theorem flagRxTooLong : Statement .flagRxTooLong := fun _ => rfl
theorem flagBadChecksum : Statement .flagBadChecksum := fun _ => rfl
theorem flagWrongFrame : Statement .flagWrongFrame := fun _ => rfl
theorem flagCmdRejected : Statement .flagCmdRejected := fun _ => rfl
theorem flagPollTimeout : Statement .flagPollTimeout := fun _ => rfl

end Sys2Proof.Laws.CodeSize
end

