-- ==== Sys2Proof/Laws/Running.lean ====
section
/-! SUPPORT. What the pieces of a step can do: where a transaction or a pulse is by the innermost
activation, the frames of the micro-steps, an exchange step as five steps, and accepted requests. -/

namespace Sys2Proof.Machine

open Sys2Proof

variable {s t : State} {a : Act} {r : List Act}

/-! ## Where the block is -/

/-- The activation is outside `select(1)` … `select(0)`. -/
def Act.outside : Act → Bool
  | .xfer p => !selected p
  | _ => true

/-- The activation is inside `reset_assert` … `reset_deassert`. -/
def Act.pulsing : Act → Bool
  | .pulse p => decide (p ≠ .start)
  | _ => false

theorem inTransaction_head (hb : s.busy = true) (ho : s.ops = a :: r) :
    inTransaction s = !a.outside := by
  simp only [inTransaction, hb, ho, Bool.true_and]
  cases a <;> simp [Act.outside]

theorem inPulse_head (hb : s.busy = true) (ho : s.ops = a :: r) : inPulse s = a.pulsing := by
  simp only [inPulse, hb, ho, Bool.true_and]
  cases a <;> rfl

/-- An activation that waits for another is outside a transaction and outside a pulse. -/
theorem waiting_outside (h : waiting a = true) : a.outside = true ∧ a.pulsing = false := by
  cases a with
  | xfer p => cases h
  | pulse p => cases h
  | _ => exact ⟨rfl, rfl⟩

/-- A first activation is outside a transaction and outside a pulse. -/
theorem isFirst_outside (h : a.isFirst = true) : a.outside = true ∧ a.pulsing = false := by
  cases a with
  | xfer p => cases p <;> first | exact ⟨rfl, rfl⟩ | exact absurd h Bool.false_ne_true
  | pulse p => cases p <;> first | exact ⟨rfl, rfl⟩ | exact absurd h Bool.false_ne_true
  | _ => exact ⟨rfl, rfl⟩

theorem atLoop_iff : atLoop s = true ↔ s.busy = true ∧ ∃ r, s.ops = .xfer .loop :: r := by
  simp only [atLoop, Bool.and_eq_true]
  constructor
  · rintro ⟨hb, h⟩
    refine ⟨hb, ?_⟩
    split at h
    · rename_i r ho
      exact ⟨r, ho⟩
    · cases h
  · rintro ⟨hb, r, ho⟩
    exact ⟨hb, by rw [ho]⟩

/-! ## Frames of the micro-steps -/

theorem leaveTx_at_loop (ho : s.ops = .xfer .loop :: r) :
    leaveTx s = { s with ops := .xfer .exch :: r } := by
  simp [leaveTx, ho]

theorem leaveRx_at_rx {w : Bool} (ho : s.ops = .xfer .rx :: r) :
    leaveRx w s = { s with ops := .xfer (.after w) :: r } := by
  simp [leaveRx, ho]

/-- What a transmit state-step answers, as a frame. -/
theorem txStep_frame (h : txStep s = .next t) :
    ∃ (c : Byte) (q : TxRegs) (x : FlagSet),
      (x = s.xf.xresult ∨ (x = withFlag .txSuccess s.xf.xresult ∧ s.tx.txs = .cksum)) ∧
      t = { s with
        line := { s.line with xchOut := c }, tx := q, xf := { s.xf with xresult := x } } := by
  rcases txStep_cases s with ⟨e, _⟩ | ⟨c, q, x, hx, e⟩
  · rw [e] at h
    cases h
  · rw [e] at h
    cases h
    exact ⟨c, q, x, hx, rfl⟩

/-- A transmit state-step leaves OPS, BUSY, the world and the receive machine alone. -/
theorem txStep_keeps (h : txStep s = .next t) :
    t.ops = s.ops ∧ t.busy = s.busy ∧ t.world = s.world ∧ t.rx = s.rx := by
  obtain ⟨c, q, x, _, rfl⟩ := txStep_frame h
  exact ⟨rfl, rfl, rfl, rfl⟩

/-- `exchange` writes XCH_IN, the world and the free-value counter. -/
theorem exchange_frame (s : State) : ∃ (w : World) (d : Nat),
    exchange s =
      { s with line := { s.line with xchIn := some (nextByte s) }, world := w, draws := d } := by
  unfold exchange emit dropByte
  split <;> exact ⟨_, _, rfl⟩

/-- A status sample writes the world and the free-value counter. -/
theorem readStatusLine_frame (s : State) : ∃ (w : World) (d : Nat),
    readStatusLine s = { s with world := w, draws := d } := by
  unfold readStatusLine dropStatus emit
  split <;> exact ⟨_, _, rfl⟩

/-- An attention sample writes the world and the free-value counter. -/
theorem readAttentionLine_frame (s : State) : ∃ (w : World) (d : Nat),
    readAttentionLine s = { s with world := w, draws := d } := by
  unfold readAttentionLine dropAttn emit
  split <;> exact ⟨_, _, rfl⟩

/-- The verdict of DO_COMMAND writes RESULT and CMD_STATUS. -/
theorem doVerdict_frame (fr : FlagSet) (s : State) : ∃ q : Results,
    doVerdict fr s = { s with res := q } := by
  unfold doVerdict
  split
  · exact ⟨_, rfl⟩
  · split
    · exact ⟨_, rfl⟩
    · split <;> exact ⟨_, rfl⟩

/-- The retry update writes RETRY. -/
theorem retryUpdate_frame (w : Bool) (s : State) :
    retryUpdate w s = { s with xf := { s.xf with retry := (retryUpdate w s).xf.retry } } := by
  unfold retryUpdate
  split <;> rfl

/-- Behind the retry update XFER stands at its byte delay; BUSY and the world are as before. -/
theorem xferAfter_keeps (w : Bool) (s : State) :
    (xferAfter w s).busy = s.busy ∧ (xferAfter w s).world = s.world ∧
      (xferAfter w s).ops = .xfer .byteDelay :: s.ops.tail := by
  rw [xferAfter, retryUpdate_frame]
  exact ⟨rfl, rfl, rfl⟩

/-- A flag is raised in XRESULT or in RESULT. -/
theorem raiseFlag_frame (f : Flag) (s : State) :
    raiseFlag f s = { s with
      xf := { s.xf with xresult := (raiseFlag f s).xf.xresult }
      res := { s.res with result := (raiseFlag f s).res.result } } := by
  unfold raiseFlag
  split <;> rfl

/-! ## Exchange steps -/

/-- Off the loop, or when the loop is over, an exchange step is nothing. -/
theorem exchangeRound_idle (h : (atLoop s && loopCond s) = false) : exchangeRound s = .next s := by
  simp [exchangeRound, h]

theorem exchangeRounds_idle (n : Nat) (h : (atLoop s && loopCond s) = false) :
    exchangeRounds n s = .next s := by
  induction n with
  | zero => rfl
  | succ n ih => rw [exchangeRounds, exchangeRound_idle h, andThen_next, ih]

theorem exchangeRounds_add (m n : Nat) (s : State) :
    exchangeRounds (m + n) s = andThen (exchangeRounds m s) (exchangeRounds n) := by
  induction m generalizing s with
  | zero => rw [Nat.zero_add, exchangeRounds, andThen_next]
  | succ m ih =>
    rw [Nat.succ_add, exchangeRounds, exchangeRounds]
    cases exchangeRound s with
    | next u => rw [andThen_next, andThen_next, ih]
    | fault f => rfl
    | refused f => rfl

/-- An exchange step that happens, piece by piece. -/
theorem exchangeRound_next (hb : s.busy = true) (ho : s.ops = .xfer .loop :: r)
    (hc : loopCond s = true) (hn : s.world.answers ≠ some 0) {u : State}
    (hu : txStep s = .next u) :
    exchangeRound s = .next
      (xferByteDelay (xferAfter (decide (s.rx.rxs = .idle))
        (xferRx (xferExch { u with ops := .xfer .exch :: r })))) := by
  have ha : atLoop s = true := atLoop_iff.2 ⟨hb, r, ho⟩
  obtain ⟨u1, _, u3, u4⟩ := txStep_keeps hu
  rw [exchangeRound, if_pos (by rw [ha, hc]; rfl), xferLoop, if_pos hc, hu, andThen_next,
    leaveTx_at_loop (u1.trans ho), andThen_next]
  dsimp only
  rw [u4, u3, if_neg hn]

/-- Five steps of the machine are one exchange step, when its two calls are answered. -/
theorem steps_five (hb : s.busy = true) (ho : s.ops = .xfer .loop :: r) (hc : loopCond s = true)
    (hh : s.world.host = []) (hg : s.world.grain = .byte) (hn : s.world.answers = none) :
    steps 5 s = exchangeRound s := by
  have hm : ∀ (v : State) (b : Act), v.busy = true → v.ops = b :: r → v.world.host = [] →
      v.world.grain = .byte → step v = move b v := by
    intro v b h1 h2 h3 h4
    rw [step_eq_resume h1 (by rw [h2]; simp) h3 h4]
    unfold resume
    rw [h2]
  have h1 : step s = andThen (txStep s) fun t => .next (leaveTx t) := by
    rw [hm s _ hb ho hh hg]
    simp only [move, xferMove, xferLoop, hc, if_true]
  cases hu : txStep s with
  | fault f =>
    rw [steps, h1, hu, exchangeRound, if_pos (by rw [atLoop_iff.2 ⟨hb, r, ho⟩, hc]; rfl), xferLoop,
      if_pos hc, hu]
    rfl
  | refused f =>
    rw [steps, h1, hu, exchangeRound, if_pos (by rw [atLoop_iff.2 ⟨hb, r, ho⟩, hc]; rfl), xferLoop,
      if_pos hc, hu]
    rfl
  | next u =>
    rw [exchangeRound_next hb ho hc (by rw [hn]; simp) hu]
    obtain ⟨u1, u2, u3, u4⟩ := txStep_keeps hu
    rw [hu, andThen_next, leaveTx_at_loop (u1.trans ho)] at h1
    rw [steps_next h1]
    generalize hv : { u with ops := .xfer .exch :: r } = v
    have v1 : v.busy = true := by rw [← hv]; exact u2.trans hb
    have v2 : v.ops = .xfer .exch :: r := by rw [← hv]
    have v3 : v.world = s.world := by rw [← hv]; exact u3
    have v4 : v.rx = s.rx := by rw [← hv]; exact u4
    rw [steps_next (hm v _ v1 v2 (by rw [v3, hh]) (by rw [v3, hg]))]
    have v5 : v.world.answers = none := by rw [v3, hn]
    have e : xferExch v = goto (.xfer .rx) (exchange v) := calling_none v5
    have w2 : (xferExch v).ops = .xfer .rx :: r := by simp [e, v2]
    have w3 : (xferExch v).world.host = [] ∧ (xferExch v).world.grain = .byte := by
      rw [e]
      unfold exchange emit dropByte goto
      split <;> exact ⟨by rw [← hh, ← v3], by rw [← hg, ← v3]⟩
    have w4 : (xferExch v).rx = s.rx := by
      rw [← v4, e]
      unfold exchange emit dropByte goto
      split <;> rfl
    have w5 : (xferExch v).busy = true := by simp [e, v1]
    rw [steps_next (hm _ _ w5 w2 w3.1 w3.2)]
    have x1 : xferRx (xferExch v) =
        { rxStep (inByte (xferExch v)) (takeIn (xferExch v)) with
          ops := .xfer (.after (decide (s.rx.rxs = .idle))) :: r } := by
      rw [xferRx, leaveRx_at_rx (by rw [rxStep_ops, takeIn_ops, w2]), w4]
    generalize xferRx (xferExch v) = y at x1 ⊢
    have y1 : y.busy = true := by rw [x1]; simpa using w5
    have y2 : y.ops = .xfer (.after (decide (s.rx.rxs = .idle))) :: r := by rw [x1]
    have y3 : y.world = (xferExch v).world := by rw [x1]; simp
    rw [steps_next (hm y _ y1 y2 (by rw [y3, w3.1]) (by rw [y3, w3.2]))]
    obtain ⟨z1, z2, z3⟩ := xferAfter_keeps (decide (s.rx.rxs = .idle)) y
    rw [steps_next (hm _ (.xfer .byteDelay) (z1.trans y1) (by rw [z3, y2]; rfl)
      (by rw [z2, y3, w3.1]) (by rw [z2, y3, w3.2]))]
    rfl

/-! ## Accepted requests -/

/-- A request in BUSY = 0 starts an operation, or is a reserved code and refused. -/
theorem exec_request (w : ReqWord) (hb : s.busy = false) :
    (∃ a : Act, a.isFirst = true ∧
      exec (decodeRequest w) s = move a { s with busy := true, ops := [a] }) ∨
    exec (decodeRequest w) s = .refused .reservedOperation := by
  have hr : reserved s = .refused .reservedOperation := by simp [reserved, hb]
  unfold decodeRequest
  split
  · exact .inl ⟨.xfer .start, rfl, hostOp_idle _ hb⟩
  · exact .inl ⟨.send _ _ _ .start, rfl, hostOp_idle _ hb⟩
  · exact .inl ⟨.recv .start, rfl, hostOp_idle _ hb⟩
  · exact .inl ⟨.doCmd _ _ _ .start, rfl, hostOp_idle _ hb⟩
  · exact .inl ⟨.setPower _, rfl, hostOp_idle _ hb⟩
  · exact .inl ⟨.waitPower _ 0, rfl, hostOp_idle _ hb⟩
  · exact .inl ⟨.waitAttn 0, rfl, hostOp_idle _ hb⟩
  · exact .inl ⟨.pulse .start, rfl, hostOp_idle _ hb⟩
  · exact .inl ⟨.configure .start, rfl, hostOp_idle _ hb⟩
  all_goals exact .inr hr

end Sys2Proof.Machine
end

