-- ==== Sys2Proof/Tests/Slice0.lean ====
section
/-! SUPPORT. The model's own tests: ill-formed terms the checks refuse, words written out from the spec's
encodings, one step of every instruction with values from spec/95_test_vectors.md, and for every
obligation with hypotheses a state and operands that meet them. -/

namespace Sys2Proof.Tests

open Sys2Proof Sys2Proof.Machine

/-! ## Small states -/

/-- The parameters of spec/95_test_vectors.md (program P3's CONFIG_SEQ). -/
def params : Config.Params where
  retryBudget := 8
  cmdFrameId := 0x55#8
  configSeq := #v[⟨0x44#8, 0x36#8, [0x00#8]⟩, ⟨0x44#8, 0x37#8, [0x00#8]⟩, ⟨0x53#8, 0x4D#8, [0x01#8]⟩]
  pollLimit := none
  tResetUs := 0
  tSelectUs := 0
  tByteUs := 0

/-- The block out of reset. -/
def idle : State := State.resetWith params World.quiet 0

/-- A Frame Buffer with these payload bytes. -/
def buf (len : Half) (t : Byte) (bytes : List Byte) : FrameBuffer :=
  { length := len, frameType := t, payload := memPutAll [] 0 bytes, fill := 0 }

/-- The command frame "VR" of vector F1 in TXBUF. -/
def vr : State := { idle with txbuf := buf 3 0x08 [0x55, 0x56, 0x52] }

/-- The host's request is at the port. -/
def asking (w : ReqWord) (s : State) : State :=
  { s with world := { s.world with host := [.request w] } }

/-- An operation in progress. -/
def doing (a : Act) (r : List Act) (s : State) : State := { s with busy := true, ops := a :: r }

/-- A transaction at a position, SELECT asserted. -/
def within (p : XferPos) (s : State) : State :=
  { doing (.xfer p) [] s with line := { s.line with select := true } }

/-- The transmit machine in a state. -/
def txIn (st : TxState) (s : State) : State := { s with tx := { s.tx with txs := st } }

/-- The receive machine in a state with a byte on XCH_IN. -/
def rxIn (st : RxState) (b : Byte) (s : State) : State :=
  { s with rx := { s.rx with rxs := st }, line := { s.line with xchIn := some b } }

/-- The inbound stream. -/
def hearing (bytes : List Byte) (s : State) : State :=
  { s with world := { s.world with inbound := bytes } }

/-- A receive-only transaction at its loop test with one retry left. -/
def listening : State :=
  { within .loop idle with
    xf := { retry := 1, rxseen := false, rxonly := true, xresult := 0 } }

/-- The outcome is a next state with this property. -/
def nextWith (o : Out) (p : State → Bool) : Bool :=
  match o with
  | .next t => p t
  | .fault _ => false
  | .refused _ => false

/-- The outcome is this refusal. -/
def refusedWith (o : Out) (q : Refusal) : Bool :=
  match o with
  | .next _ => false
  | .fault _ => false
  | .refused r => decide (r = q)

/-- The outcome is this fault. -/
def faultedWith (o : Out) (q : Fault) : Bool :=
  match o with
  | .next _ => false
  | .fault r => decide (r = q)
  | .refused _ => false

/-! ## Well-formedness refuses each kind of ill-formed term -/

theorem test_wf_generic_length : (Instr.frameGeneric 2 0x01 [] 0xFE).wf = false := by decide
theorem test_wf_generic_named_type : (Instr.frameGeneric 2 0x8A [0x00] 0x75).wf = false := by decide
theorem test_wf_at_command_length : (Instr.frameAtCommand 4 [0x55, 0x56] 0xFA).wf = false := by decide
theorem test_wf_at_response_length : (Instr.frameAtResponse 1 [0x55] 0x00).wf = false := by decide
theorem test_wf_modem_status_length : (Instr.frameModemStatus 2 [] 0x75).wf = false := by decide
theorem test_wf_tx_request_length : (Instr.frameTxRequest 0 [0x00] 0xEF).wf = false := by decide
theorem test_wf_rx_indication_length :
    (Instr.frameRxIndication 2 [0x00, 0x01] 0xEF).wf = false := by decide
theorem test_wf_wire_length_zero : (Instr.frameModemStatus 0 [] 0x75).wf = true := by decide
theorem test_wf_host_operation : (Instr.doCommand 0xFF 0xFF 0xFF).wf = true := by decide

/-! ## Words written out bit by bit -/

/-- R104: c0 ++ c1 ++ plen ++ 7:5 ++ st ++ op, for SEND_COMMAND "VR", 0. -/
theorem test_decode_send :
    decode (.request 0b01010110010100100000000000000010#32) =
      .ok (.sendCommand 0x56 0x52 0x00) := by decide
theorem test_decode_do :
    decode (.request 0b01000100001101100000000100000100#32) =
      .ok (.doCommand 0x44 0x36 0x01) := by decide
theorem test_decode_set_wake :
    decode (.request 0b00000000000000000000000000010101#32) = .ok (.setPower .wake) := by decide
theorem test_decode_set_ignores :
    decode (.request 0b11111111111111111111111111100101#32) = .ok (.setPower .sleep) := by decide
theorem test_decode_wait_power :
    decode (.request 0b00000000000000000000000000010110#32) = .ok (.waitPower .wake) := by decide
theorem test_decode_xfer :
    decode (.request 0b00000000000000000000000000000001#32) = .ok .xfer := by decide
theorem test_decode_receive :
    decode (.request 0b00000000000000000000000000000011#32) = .ok .receiveResponse := by decide
theorem test_decode_wait_attn :
    decode (.request 0b00000000000000000000000000000111#32) = .ok .waitAttn := by decide
theorem test_decode_reset_pulse :
    decode (.request 0b00000000000000000000000000001000#32) = .ok .resetPulse := by decide
theorem test_decode_configure :
    decode (.request 0b00000000000000000000000000001001#32) = .ok .configure := by decide
theorem test_decode_reserved_low : decode (.request 0x00000000#32) = .ok .reserved0 := by decide
theorem test_decode_reserved_high : decode (.request 0xFFFFFFFF#32) = .ok .reservedF := by decide
theorem test_decode_reserved_middle :
    decode (.request 0x0000000A#32) = .ok .reservedA ∧
    decode (.request 0x0000000B#32) = .ok .reservedB ∧
    decode (.request 0x0000000C#32) = .ok .reservedC ∧
    decode (.request 0x0000000D#32) = .ok .reservedD ∧
    decode (.request 0x0000000E#32) = .ok .reservedE := by decide
/-- F1. -/
theorem test_decode_frame_command :
    decode (.wire [0x7E, 0x00, 0x04, 0x08, 0x55, 0x56, 0x52, 0xFA]) =
      .ok (.frameAtCommand 4 [0x55, 0x56, 0x52] 0xFA) := by decide
/-- F12. -/
theorem test_decode_frame_response :
    decode (.wire [0x7E, 0x00, 0x05, 0x88, 0x55, 0x56, 0x52, 0x00, 0x7A]) =
      .ok (.frameAtResponse 5 [0x55, 0x56, 0x52, 0x00] 0x7A) := by decide
/-- F8. -/
theorem test_decode_frame_modem :
    decode (.wire [0x7E, 0x00, 0x02, 0x8A, 0x00, 0x75]) =
      .ok (.frameModemStatus 2 [0x00] 0x75) := by decide
/-- F2. -/
theorem test_decode_frame_tx_request :
    decode (.wire [0x7E, 0x00, 0x02, 0x10, 0x00, 0xEF]) =
      .ok (.frameTxRequest 2 [0x00] 0xEF) := by decide
/-- F3. -/
theorem test_decode_frame_rx_indication :
    decode (.wire [0x7E, 0x00, 0x04, 0x90, 0xFF, 0xFF, 0x72, 0xFF]) =
      .ok (.frameRxIndication 4 [0xFF, 0xFF, 0x72] 0xFF) := by decide
/-- F4. -/
theorem test_decode_frame_generic :
    decode (.wire [0x7E, 0x00, 0x02, 0xFF, 0x00, 0x00]) =
      .ok (.frameGeneric 2 0xFF [0x00] 0x00) := by decide
theorem test_decode_tx_states :
    decode (.txState 0b000) = .ok .stepTxIdle ∧ decode (.txState 0b001) = .ok .stepTxHeader ∧
    decode (.txState 0b010) = .ok .stepTxLenHi ∧ decode (.txState 0b011) = .ok .stepTxLenLo ∧
    decode (.txState 0b100) = .ok .stepTxType ∧ decode (.txState 0b101) = .ok .stepTxData ∧
    decode (.txState 0b110) = .ok .stepTxCksum := by decide
theorem test_decode_rx_states :
    decode (.rxState 0b000) = .ok .stepRxIdle ∧ decode (.rxState 0b001) = .ok .stepRxLenHi ∧
    decode (.rxState 0b010) = .ok .stepRxLenLo ∧ decode (.rxState 0b011) = .ok .stepRxType ∧
    decode (.rxState 0b100) = .ok .stepRxData ∧ decode (.rxState 0b101) = .ok .stepRxCksum := by
  decide
theorem test_decode_flags :
    decode (.flag 0b000000001) = .ok .flagSizeError ∧
    decode (.flag 0b000000010) = .ok .flagTxSuccess ∧
    decode (.flag 0b000000100) = .ok .flagRxSuccess ∧
    decode (.flag 0b000001000) = .ok .flagNoData ∧
    decode (.flag 0b000010000) = .ok .flagRxTooLong ∧
    decode (.flag 0b000100000) = .ok .flagBadChecksum ∧
    decode (.flag 0b001000000) = .ok .flagWrongFrame ∧
    decode (.flag 0b010000000) = .ok .flagCmdRejected ∧
    decode (.flag 0b100000000) = .ok .flagPollTimeout := by decide
theorem test_decode_two_flags : decode (.flag 0x003) = .error .notOneFlag := by decide
theorem test_decode_truncated_frame :
    decode (.wire [0x7E, 0x00, 0x02, 0x8A, 0x00]) = .error .truncated := by decide
theorem test_decode_trailing_byte :
    decode (.wire [0x7E, 0x00, 0x02, 0x8A, 0x00, 0x75, 0x00]) = .error .trailing := by decide

/-! ## The opcode table's words -/

theorem test_table_request : decodeTableWord 32 0x00000005 = some (.setPower .sleep) := by decide
theorem test_table_frame : decodeTableWord 32 0x7E00048A = some (.frameModemStatus 4 [0, 0, 0] 0) := by
  decide
theorem test_table_state : decodeTableWord 8 5 = some .stepTxData := by decide
theorem test_table_flag : decodeTableWord 16 0x080 = some .flagCmdRejected := by decide
/-- The placed word is what the next step runs. -/
theorem test_fetch_word_set_power :
    nextWith (step (idle.withFetchWord 32 0x00000005)) (fun t => decide (t.line.pwrReq = .sleep)) =
      true := by decide
theorem test_fetch_word_frame :
    nextWith (step (idle.withFetchWord 32 0x7E00018A))
      (fun t => decide (t.xf.xresult = 0x020 ∧ t.rx.rxs = .idle)) = true := by decide

/-! ## The transmit state-steps: the trace of F1 -/

theorem test_tx_idle :
    nextWith (exec .stepTxIdle vr) (fun t => decide (t.line.xchOut = 0x00)) = true := by decide
theorem test_tx_header :
    nextWith (exec .stepTxHeader (txIn .header vr))
      (fun t => decide (t.line.xchOut = 0x7E ∧ t.tx.txs = .lenHi)) = true := by decide
theorem test_tx_len_hi :
    nextWith (exec .stepTxLenHi (txIn .lenHi vr))
      (fun t => decide (t.line.xchOut = 0x00 ∧ t.tx.txs = .lenLo)) = true := by decide
theorem test_tx_len_lo :
    nextWith (exec .stepTxLenLo (txIn .lenLo vr))
      (fun t => decide (t.line.xchOut = 0x04 ∧ t.tx.txs = .ftype)) = true := by decide
theorem test_tx_type :
    nextWith (exec .stepTxType (txIn .ftype vr))
      (fun t => decide (t.line.xchOut = 0x08 ∧ t.tx.txsum = 0x08 ∧ t.tx.txs = .data)) = true := by
  decide
/-- TX_DATA(2): the sum wraps, 0xB3 + 0x52 = 0x05, and the checksum is due. -/
theorem test_tx_data_last :
    nextWith (exec .stepTxData
        { vr with tx := { txs := .data, txidx := 2, txsum := 0xB3 } })
      (fun t => decide (t.line.xchOut = 0x52 ∧ t.tx.txsum = 0x05 ∧ t.tx.txs = .cksum)) = true := by
  decide
theorem test_tx_data_outside :
    faultedWith (exec .stepTxData { vr with tx := { txs := .data, txidx := 64, txsum := 0 } })
      .payloadIndexOutOfRange = true := by decide
theorem test_tx_cksum :
    nextWith (exec .stepTxCksum { vr with tx := { txs := .cksum, txidx := 3, txsum := 0x05 } })
      (fun t => decide (t.line.xchOut = 0xFA ∧ t.tx.txs = .idle ∧ t.xf.xresult = 0x002)) = true := by
  decide
theorem test_tx_step_not_enabled :
    refusedWith (exec .stepTxCksum vr) .stateStepNotEnabled = true := by decide

/-! ## The receive state-steps: the trace of T2 -/

theorem test_rx_idle_garbage :
    nextWith (exec .stepRxIdle (rxIn .idle 0x13 listening))
      (fun t => decide (t.rx.rxs = .idle ∧ t.xf.rxseen = false ∧ t.xf.retry = 1)) = true := by decide
theorem test_rx_idle_delimiter :
    nextWith (exec .stepRxIdle (rxIn .idle 0x7E listening))
      (fun t => decide (t.rx.rxs = .lenHi ∧ t.xf.rxseen = true ∧ t.xf.retry = 0)) = true := by decide
/-- R21: the sampled byte is not latched beyond the exchange step. -/
theorem test_rx_byte_not_latched :
    nextWith (step (within .rx (rxIn .idle 0x7E listening)))
      (fun t => decide (t.line.xchIn = none ∧ t.rx.rxs = .lenHi)) = true := by decide
theorem test_rx_len_hi :
    nextWith (exec .stepRxLenHi (rxIn .lenHi 0x7E idle))
      (fun t => decide (t.rx.rxs = .lenLo ∧ t.rx.rxw = 0x7E00)) = true := by decide
theorem test_rx_len_lo :
    nextWith (exec .stepRxLenLo (rxIn .lenLo 0x02 idle))
      (fun t => decide (t.rx.rxs = .ftype ∧ t.rx.rxw = 2 ∧ t.rx.rxn = 1 ∧ t.rx.rxlong = false)) =
      true := by decide
/-- T4: RXW = 65 is too long. -/
theorem test_rx_len_lo_long :
    nextWith (exec .stepRxLenLo (rxIn .lenLo 0x41 idle))
      (fun t => decide (t.rx.rxn = 64 ∧ t.rx.rxlong = true ∧ t.xf.xresult = 0x010)) = true := by decide
theorem test_rx_type :
    nextWith (exec .stepRxType (rxIn .ftype 0x8A { idle with rx := { idle.rx with rxn := 1 } }))
      (fun t => decide (t.rx.rxs = .data ∧ t.rxa.frameType = 0x8A ∧ t.rx.rxsum = 0x8A)) = true := by
  decide
theorem test_rx_type_empty :
    nextWith (exec .stepRxType (rxIn .ftype 0x8A idle)) (fun t => decide (t.rx.rxs = .cksum)) = true := by
  decide
/-- The receiver's registers at the data byte of F8. -/
def atData : State :=
  { idle with
    rx := { rxs := .data, rxw := 2, rxn := 1, rxidx := 0, rxsum := 0x8A, rxlong := false }
    rxa := { idle.rxa with frameType := 0x8A } }
theorem test_rx_data :
    nextWith (exec .stepRxData (rxIn .data 0x06 atData))
      (fun t => decide (t.rx.rxs = .cksum ∧ t.rx.rxsum = 0x90 ∧ t.rxa.byte 0 = 0x06)) = true := by decide
/-- The receiver's registers at the checksum byte of F8. -/
def atCksum : State :=
  { atData with
    rx := { rxs := .cksum, rxw := 2, rxn := 1, rxidx := 1, rxsum := 0x8A, rxlong := false }
    rxa := { frameType := 0x8A, payload := [(0, 0x00)], fill := 0 } }
/-- F8 is committed. -/
theorem test_rx_cksum_commits :
    nextWith (exec .stepRxCksum (rxIn .cksum 0x75 atCksum))
      (fun t => decide (t.rx.rxs = .idle ∧ t.rxbuf.length = 1 ∧ t.rxbuf.frameType = 0x8A ∧
        t.rxbuf.byte 0 = 0x00 ∧ t.xf.xresult = 0x004)) = true := by decide
/-- T3: the checksum byte is off by one. -/
theorem test_rx_cksum_mismatch :
    nextWith (exec .stepRxCksum (rxIn .cksum 0x74 atCksum))
      (fun t => decide (t.rx.rxs = .idle ∧ t.rxbuf.length = 0 ∧ t.xf.xresult = 0x020)) = true := by
  decide

/-! ## Frames -/

/-- T2: a modem status in a receive-only transaction. -/
theorem test_frame_modem_status :
    nextWith (exec (.frameModemStatus 2 [0x00] 0x75) listening)
      (fun t => decide (t.rxbuf.frameType = 0x8A ∧ t.rxbuf.length = 1 ∧ t.rxbuf.byte 0 = 0x00 ∧
        t.xf.xresult = 0x004)) = true := by decide
/-- T3b: one payload byte changed. -/
theorem test_frame_at_command_corrupt :
    nextWith (exec (.frameAtCommand 4 [0x55, 0x57, 0x52] 0xFA) listening)
      (fun t => decide (t.rxbuf.length = 0 ∧ t.xf.xresult = 0x020)) = true := by decide
/-- F11. -/
theorem test_frame_at_response :
    nextWith (exec (.frameAtResponse 5 [0x55, 0x56, 0x52, 0x02] 0x78) listening)
      (fun t => decide (t.rxbuf.frameType = 0x88 ∧ t.rxbuf.length = 4 ∧ t.rxbuf.byte 3 = 0x02)) =
      true := by decide
/-- F6: 0x7E as data. -/
theorem test_frame_tx_request :
    nextWith (exec (.frameTxRequest 3 [0x7E, 0x7E] 0xF3) listening)
      (fun t => decide (t.rxbuf.length = 2 ∧ t.rxbuf.byte 1 = 0x7E ∧ t.xf.xresult = 0x004)) = true := by
  decide
/-- F3: the sum wraps to 0. -/
theorem test_frame_rx_indication :
    nextWith (exec (.frameRxIndication 4 [0xFF, 0xFF, 0x72] 0xFF) listening)
      (fun t => decide (t.rxbuf.length = 3 ∧ t.xf.xresult = 0x004)) = true := by decide
/-- F5. -/
theorem test_frame_generic :
    nextWith (exec (.frameGeneric 2 0x01 [0xFF] 0xFF) listening)
      (fun t => decide (t.rxbuf.frameType = 0x01 ∧ t.xf.xresult = 0x004)) = true := by decide
/-- T5: wire length 0. -/
theorem test_frame_wire_length_zero :
    nextWith (exec (.frameModemStatus 0 [] 0x75) listening)
      (fun t => decide (t.rxbuf.frameType = 0x8A ∧ t.rxbuf.length = 0 ∧ t.xf.xresult = 0x004)) =
      true := by decide

/-! ## Flags -/

theorem test_flag_size_error :
    nextWith (exec .flagSizeError idle) (fun t => decide (t.xf.xresult = 0x001)) = true := by decide
theorem test_flag_tx_success :
    nextWith (exec .flagTxSuccess idle) (fun t => decide (t.xf.xresult = 0x002)) = true := by decide
theorem test_flag_rx_success :
    nextWith (exec .flagRxSuccess idle) (fun t => decide (t.xf.xresult = 0x004)) = true := by decide
theorem test_flag_no_data :
    nextWith (exec .flagNoData idle) (fun t => decide (t.xf.xresult = 0x008)) = true := by decide
theorem test_flag_rx_too_long :
    nextWith (exec .flagRxTooLong idle) (fun t => decide (t.xf.xresult = 0x010)) = true := by decide
theorem test_flag_bad_checksum :
    nextWith (exec .flagBadChecksum { idle with xf := { idle.xf with xresult := 0x010 } })
      (fun t => decide (t.xf.xresult = 0x030)) = true := by decide
theorem test_flag_wrong_frame :
    nextWith (exec .flagWrongFrame { idle with res := { idle.res with result := 0x006 } })
      (fun t => decide (t.res.result = 0x046 ∧ t.xf.xresult = 0)) = true := by decide
theorem test_flag_cmd_rejected :
    nextWith (exec .flagCmdRejected { idle with res := { idle.res with result := 0x006 } })
      (fun t => decide (t.res.result = 0x086)) = true := by decide
theorem test_flag_poll_timeout :
    nextWith (exec .flagPollTimeout idle) (fun t => decide (t.res.result = 0x100)) = true := by decide

/-! ## Host operations, one step each -/

/-- X1 starts: SELECT and TX_HEADER. -/
theorem test_xfer_starts :
    nextWith (step (asking 0x00000001 vr))
      (fun t => decide (t.line.select = true ∧ t.tx.txs = .header ∧ t.busy = true)) = true := by decide
/-- X2c: length 0x0100 is refused by the size check, without SELECT. -/
theorem test_xfer_size_error :
    nextWith (step (asking 0x00000001 { vr with txbuf := buf 0x0100 0x10 [] }))
      (fun t => decide (t.line.select = false ∧ t.ops = [.xfer (.raise .sizeError)])) = true := by decide
/-- S1: TXBUF is (0x08, 3, 55 56 52). -/
theorem test_send_command :
    nextWith (step (asking 0x56520002 idle))
      (fun t => decide (t.txbuf.frameType = 0x08 ∧ t.txbuf.length = 3 ∧ t.txbuf.byte 0 = 0x55 ∧
        t.txbuf.byte 1 = 0x56 ∧ t.txbuf.byte 2 = 0x52)) = true := by decide
/-- S2: plen 61 gives length 64. -/
theorem test_send_command_long :
    nextWith (step (asking 0x56523D02 idle)) (fun t => decide (t.txbuf.length = 64)) = true := by decide
/-- Q2: the timeout returns before TXBUF is written. -/
theorem test_receive_response_timeout :
    nextWith (step (doing (.recv .waited) [] { vr with res := { vr.res with result := 0x100 } }))
      (fun t => decide (t.res.result = 0x100 ∧ t.txbuf = vr.txbuf ∧ t.busy = false)) = true := by decide
/-- Q1: FT_NONE and length 0, payload kept. -/
theorem test_receive_response_sentinel :
    nextWith (step (doing (.recv .waited) [] vr))
      (fun t => decide (t.txbuf.frameType = 0x00 ∧ t.txbuf.length = 0 ∧ t.txbuf.byte 0 = 0x55)) =
      true := by decide
/-- DO_COMMAND after a receive: the response in RXBUF, RESULT {RX_SUCCESS}. -/
def answered (b : FrameBuffer) : State :=
  doing (.doCmd 0x56 0x52 0 .received) []
    { idle with rxbuf := b, res := { result := 0x004, sendResult := 0x002, cmdStatus := 0xEE } }
/-- DC4: status 0x02 is rejected and latched. -/
theorem test_do_command_rejected :
    nextWith (step (answered (buf 4 0x88 [0x55, 0x56, 0x52, 0x02])))
      (fun t => decide (t.res.result = 0x086 ∧ t.res.cmdStatus = 0x02 ∧ t.busy = false)) = true := by
  decide
/-- DC5: the right type, too short for a status byte. -/
theorem test_do_command_short :
    nextWith (step (answered (buf 3 0x88 [0x55, 0x56, 0x52])))
      (fun t => decide (t.res.result = 0x046 ∧ t.res.cmdStatus = 0xEE)) = true := by decide
/-- H1. -/
theorem test_set_power :
    nextWith (step (asking 0x00000005 idle))
      (fun t => decide (t.line.pwrReq = .sleep ∧ t.res.result = 0 ∧ t.busy = false ∧
        t.world.events = [.setRequestLine .sleep])) = true := by decide
/-- H4: the first sample matches. -/
theorem test_wait_power_first :
    nextWith (step (asking 0x00000006 { idle with world := { idle.world with statusIn := [.sleep] } }))
      (fun t => decide (t.busy = false ∧ t.res.result = 0 ∧ t.world.events = [.readStatus .sleep])) =
      true := by decide
/-- H7: POLL_LIMIT 0 gives up without a sample. -/
theorem test_wait_power_limit_zero :
    nextWith (step (asking 0x00000016 { idle with params := { params with pollLimit := some 0 } }))
      (fun t => decide (t.busy = false ∧ t.res.result = 0x100 ∧ t.world.events = [])) = true := by decide
/-- H10, first poll. -/
theorem test_wait_attn_polls :
    nextWith (step (asking 0x00000007 { idle with world := { idle.world with attnIn := [false, true] } }))
      (fun t => decide (t.busy = true ∧ t.world.attnIn = [true])) = true := by decide
/-- H9. -/
theorem test_wait_attn_asserted :
    nextWith (step (asking 0x00000007 { idle with world := { idle.world with attnIn := [true] } }))
      (fun t => decide (t.busy = false ∧ t.res.result = 0)) = true := by decide
/-- Z1. -/
theorem test_reset_pulse_asserts :
    nextWith (step (asking 0x00000008 idle))
      (fun t => decide (t.line.resetOut = true ∧ t.world.events = [.resetAssert])) = true := by decide
theorem test_reset_pulse_releases :
    nextWith (step { doing (.pulse .release) [] idle with line := { idle.line with resetOut := true } })
      (fun t => decide (t.line.resetOut = false ∧ t.busy = false)) = true := by decide
/-- P3, attempt 1: status 0x06 restarts without a command (V8). -/
theorem test_configure_restarts :
    nextWith (step (doing (.configure .harvested) []
        { idle with rxbuf := buf 1 0x8A [0x06], res := { idle.res with result := 0x004 } }))
      (fun t => decide (t.ops = [.configure .attempt])) = true := by decide
/-- P3, attempt 2: "D6" with one parameter byte 00. -/
theorem test_configure_first_command :
    nextWith (step (doing (.configure .command) [] idle))
      (fun t => decide (t.ops = [.doCmd 0x44 0x36 1 .start, .configure .commanded] ∧
        t.txbuf.byte 3 = 0x00)) = true := by decide
/-- R43: SELECT can be read during a transaction, and reads 1 there. -/
theorem test_host_reads_select_while_busy :
    nextWith (step { listening with world := { listening.world with host := [.readReg .select] } })
      (fun t => decide (t.world.hostWord = 1 ∧ t.busy = true)) = true := by decide
/-- R176, R178: RETRY is decremented before the byte delay is called, so also when that delay hangs. -/
theorem test_retry_before_hung_delay :
    nextWith (steps 2 { within (.after true) { idle with xf := { idle.xf with retry := 1 } } with
        world := { idle.world with answers := some 0 } })
      (fun t => decide (t.xf.retry = 0 ∧ t.ops = [.xfer .byteDelay] ∧ t.world.events = [])) = true := by
  decide
/-- R266, R338: SEQ_ATTEMPTS is watched while CONFIGURE runs: 1 after the first attempt began. -/
theorem test_attempts_watched_while_busy :
    nextWith (steps 3 { idle with world :=
        { idle.world with host := [.request 0x00000009, .pass, .readReg .seqAttempts] } })
      (fun t => decide (t.world.hostWord = 1 ∧ t.busy = true)) = true := by decide
/-- R320, R338: a wait is ended by block reset, here after its third poll. -/
theorem test_reset_after_third_poll :
    nextWith (steps 4 { idle with world := { idle.world with
        host := [.request 0x00000007, .pass, .pass, .reset], attnIn := [false, false, false, true] } })
      (fun t => decide (t.busy = false ∧ t.ops = [] ∧ t.world.attnIn = [true])) = true := by decide
/-- U12: an exchange that never returns hangs the block, BUSY = 1. -/
theorem test_hung_exchange :
    nextWith (step { within .exch idle with world := { idle.world with answers := some 0 } })
      (fun t => decide (t.busy = true ∧ t.ops = [.xfer .exch] ∧ t.world.events = [])) = true := by decide
/-- Z2. -/
theorem test_reserved_refused :
    refusedWith (step (asking 0x00000000 idle)) .reservedOperation = true ∧
    refusedWith (step (asking 0x0000000A idle)) .reservedOperation = true ∧
    refusedWith (step (asking 0x0000000B idle)) .reservedOperation = true ∧
    refusedWith (step (asking 0x0000000C idle)) .reservedOperation = true ∧
    refusedWith (step (asking 0x0000000D idle)) .reservedOperation = true ∧
    refusedWith (step (asking 0x0000000E idle)) .reservedOperation = true ∧
    refusedWith (step (asking 0x0000000F idle)) .reservedOperation = true := by decide

/-! ## Witnesses: for every obligation with hypotheses, values that meet them, clause by clause -/

/-- A request action. -/
def req (w : ReqWord) : HostAct := .request w

/-- The host has these actions left. -/
def hosting (l : List HostAct) (s : State) : State := { s with world := { s.world with host := l } }

/-- No call is answered any more. -/
def hung (s : State) : State := { s with world := { s.world with answers := some 0 } }

/-- The wire is taken a frame at a time. -/
def framewise (s : State) : State := { s with world := { s.world with grain := .frame } }

theorem test_witness_DecodeEncodeRoundTrip :
    (Instr.frameGeneric 2 0x01 [0xFF] 0xFF).wf = true ∧ Instr.xfer.wf = true := by decide

theorem test_witness_DecodedFrameAccountsForEveryByte :
    decodeFrame [0x7E, 0x00, 0x02, 0x8A, 0x00, 0x75, 0x7E, 0x00] =
      .ok (.frameModemStatus 2 [0x00] 0x75, [0x7E, 0x00]) := by decide

theorem test_witness_SpecWordsDecode :
    (∀ f, (0x003#9 : FlagSet) ≠ flagCode f) ∧ (∀ f, (0x000#9 : FlagSet) ≠ flagCode f) ∧
    (0x7F#8 : Byte) ≠ 0x7E#8 :=
  ⟨fun f => by cases f <;> decide, fun f => by cases f <;> decide, by decide⟩

theorem test_witness_StepRunsRequestedInstruction :
    let s := asking 0x56520002 idle
    s.busy = false ∧ s.world.host = req 0x56520002 :: [] ∧
      decode (.request 0x56520002) = .ok (.sendCommand 0x56 0x52 0) := by decide

theorem test_witness_StepRunsInstructionInProgress :
    (let s := within .loop (txIn .header vr)
     s.busy = true ∧ s.world.host = [] ∧ s.world.grain = .byte ∧ s.ops = .xfer .loop :: [] ∧
       loopCond s = true ∧ decode (.txState (txStateCode s.tx.txs)) = .ok .stepTxHeader) ∧
    (let s := within .rx idle
     s.busy = true ∧ s.world.host = [] ∧ s.world.grain = .byte ∧ s.ops = .xfer .rx :: [] ∧
       decode (.rxState (rxStateCode s.rx.rxs)) = .ok .stepRxIdle) ∧
    (let s := doing (.xfer (.raise .noData)) [] idle
     s.busy = true ∧ s.world.host = [] ∧ s.world.grain = .byte ∧
       s.ops = .xfer (.raise .noData) :: [] ∧
       decode (.flag (flagCode .noData)) = .ok .flagNoData) ∧
    (let s := doing (.waitAttn 0) [.recv .waited] idle
     s.busy = true ∧ s.world.host = [] ∧ s.world.grain = .byte ∧
       s.ops ≠ .xfer .rx :: [.recv .waited] ∧
       s.ops ≠ .xfer .loop :: [.recv .waited] ∧ s.ops.tail = [.recv .waited] ∧
       current s = some .receiveResponse) ∧
    (let s := within .loop idle
     s.ops = .xfer .loop :: [] ∧ loopCond s = false ∧ current s = some .xfer) := by decide

/-- The three hosts that make no access. -/
theorem test_witness_HostQuiet :
    HostQuiet listening listening ∧
    HostQuiet (hosting [.awaitIdle] listening) (hosting [.awaitIdle] listening) ∧
    HostQuiet (hosting [.pass, .reset] listening) (hosting [.reset] listening) :=
  ⟨.inl ⟨rfl, rfl⟩, .inr (.inl ⟨[], rfl, rfl⟩), .inr (.inr ⟨[.reset], rfl, rfl⟩)⟩

theorem test_witness_StepRunsInstructionInProgress_no_raise :
    ∀ f, (doing (.waitAttn 0) [.recv .waited] idle).ops ≠ .xfer (.raise f) :: [.recv .waited] := by
  intro f
  cases f <;> decide

theorem test_witness_StepRunsFrameOnTheWire :
    let s := framewise (hearing [0x7E, 0x00, 0x02, 0x8A, 0x00, 0x75, 0x11] listening)
    s.busy = true ∧ s.world.host = [] ∧ s.world.grain = .frame ∧ s.ops = .xfer .loop :: [] ∧
      loopCond s = true ∧ s.world.inbound = [0x7E, 0x00, 0x02, 0x8A, 0x00, 0x75] ++ [0x11] ∧
      decode (.wire [0x7E, 0x00, 0x02, 0x8A, 0x00, 0x75]) = .ok (.frameModemStatus 2 [0x00] 0x75) := by
  decide

theorem test_witness_IdleOrHungBlockDoesNothing :
    (idle.busy = false ∧ idle.world.host = []) ∧
    (let s := hosting [.pass] idle
     s.busy = false ∧ s.world.host = .pass :: []) ∧
    (let s := hung (within .exch idle)
     Running s .xfer (.xfer .exch) [] ∧ s.world.answers = some 0) ∧
    (let s := hung (within .byteDelay idle)
     Running s .xfer (.xfer .byteDelay) [] ∧ s.world.answers = some 0) ∧
    (let s := hung (doing (.waitPower .wake 3) [] idle)
     Running s (.waitPower .wake) (.waitPower .wake 3) [] ∧ s.world.answers = some 0 ∧
       s.params.pollLimit ≠ some 3) ∧
    (let s := hung (doing (.waitAttn 0) [] idle)
     Running s .waitAttn (.waitAttn 0) [] ∧ s.world.answers = some 0 ∧
       s.params.pollLimit ≠ some 0) ∧
    (let s := hung (doing (.pulse .hold) [] idle)
     Running s .resetPulse (.pulse .hold) [] ∧ s.world.answers = some 0) := by
  unfold Running
  decide

theorem test_witness_RequestWhileBusyRefused :
    let s := hosting [req 0x00000001] (doing (.waitAttn 0) [] idle)
    s.busy = true ∧ s.world.host = req 0x00000001 :: [] := by decide

/-- Image address 66 exists, 67 does not. -/
theorem test_witness_HostAccessRules :
    (let s := hosting [.write 0 [0x01]] listening
     s.world.host = .write 0 [0x01] :: [] ∧ s.busy = true) ∧
    (let s := hosting [.read .rx 0 3] listening
     s.world.host = .read .rx 0 3 :: [] ∧ s.busy = true) ∧
    (let s := hosting [.readReg .result] listening
     s.world.host = .readReg .result :: [] ∧ s.busy = true ∧ anyTime .result = false) ∧
    (let s := hosting [.write 67 [0x01]] idle
     s.world.host = .write 67 [0x01] :: [] ∧ s.busy = false ∧ 67 < 67 + [(0x01 : Byte)].length) ∧
    (let s := hosting [.read .tx 66 2] idle
     s.world.host = .read .tx 66 2 :: [] ∧ s.busy = false ∧ 67 < 66 + 2) ∧
    (let s := hosting [.write 66 [0x01]] idle
     s.world.host = .write 66 [0x01] :: [] ∧ s.busy = false ∧ 66 + [(0x01 : Byte)].length ≤ 67) ∧
    (let s := hosting [.read .tx 66 1] idle
     s.world.host = .read .tx 66 1 :: [] ∧ s.busy = false ∧ 66 + 1 ≤ 67) ∧
    (let s := hosting [.readReg .select] listening
     s.world.host = .readReg .select :: [] ∧ s.busy = true ∧ anyTime .select = true) ∧
    (let s := hosting [.readReg .cmdStatus] idle
     s.world.host = .readReg .cmdStatus :: [] ∧ s.busy = false ∧ anyTime .cmdStatus = false) ∧
    (let s := hosting [.awaitIdle] idle
     s.world.host = .awaitIdle :: [] ∧ s.busy = false) := by decide

theorem test_witness_BlockResetAbandonsOperation :
    (hosting [.reset] listening).world.host = .reset :: [] := by decide

theorem test_witness_TxIdleReturnsFill : listening.tx.txs = .idle := by decide

theorem test_witness_TxHeaderAndLengthBytes :
    (txIn .header vr).tx.txs = .header ∧ (txIn .lenHi vr).tx.txs = .lenHi ∧
    (txIn .lenLo vr).tx.txs = .lenLo := by decide

theorem test_witness_TxTypeStartsSum : (txIn .ftype vr).tx.txs = .ftype := by decide

theorem test_witness_TxDataSendsPayloadByte :
    (let s := { vr with tx := { txs := .data, txidx := 63, txsum := 0 } }
     s.tx.txs = .data ∧ s.tx.txidx.toNat < 64) ∧
    (let s := { vr with tx := { txs := .data, txidx := 64, txsum := 0 } }
     s.tx.txs = .data ∧ 64 ≤ s.tx.txidx.toNat) := by decide

theorem test_witness_TxChecksumEndsFrame : (txIn .cksum vr).tx.txs = .cksum := by decide

theorem test_witness_StateStepsFireOnlyInTheirState :
    idle.tx.txs ≠ .header ∧ idle.rx.rxs ≠ .data ∧ idle.line.xchIn = none := by decide

/-- With no byte on XCH_IN a receive state-step samples a free value. -/
theorem test_witness_Samples_free : Samples idle (Config.freeByte 3 0) { idle with draws := 4 } :=
  .inr ⟨rfl, rfl, rfl⟩

theorem test_witness_RxIdleWaitsForDelimiter :
    (let s := rxIn .idle 0x7E listening
     s.rx.rxs = .idle ∧ s.line.xchIn = some 0x7E#8) ∧
    (let s := rxIn .idle 0x7D listening
     s.rx.rxs = .idle ∧ s.line.xchIn = some 0x7D#8 ∧ 0x7D#8 ≠ 0x7E#8) := by decide

theorem test_witness_RxHighLengthAndTypeBytes :
    (let s := rxIn .lenHi 0x00 idle
     s.line.xchIn = some 0x00#8 ∧ s.rx.rxs = .lenHi) ∧
    (let s := rxIn .ftype 0x8A idle
     s.line.xchIn = some 0x8A#8 ∧ s.rx.rxs = .ftype) := by decide

/-- RXW = 64 fits, RXW = 65 does not; RXW = 0 fits. -/
theorem test_witness_RxLowLengthByteFixesCount :
    (let s := rxIn .lenLo 0x40 idle
     s.rx.rxs = .lenLo ∧ Samples s 0x40#8 (takeIn s) ∧
       ((s.rx.rxw.extractLsb' 8 8 : Byte) ++ 0x40#8 : Half).toNat - 1 < 64) ∧
    (let s := rxIn .lenLo 0x00 idle
     s.rx.rxs = .lenLo ∧ Samples s 0x00#8 (takeIn s) ∧
       ((s.rx.rxw.extractLsb' 8 8 : Byte) ++ 0x00#8 : Half).toNat - 1 < 64) ∧
    (let s := rxIn .lenLo 0x41 idle
     s.rx.rxs = .lenLo ∧ Samples s 0x41#8 (takeIn s) ∧
       64 ≤ ((s.rx.rxw.extractLsb' 8 8 : Byte) ++ 0x41#8 : Half).toNat - 1) := by
  unfold Samples
  decide

theorem test_witness_RxDataStagesAndSums :
    (let s := rxIn .data 0x06 atData
     s.rx.rxs = .data ∧ Samples s 0x06#8 (takeIn s) ∧ s.rx.rxidx.toNat < 64) ∧
    (let s := rxIn .data 0x06 { atData with rx := { atData.rx with rxidx := 64 } }
     s.rx.rxs = .data ∧ Samples s 0x06#8 (takeIn s) ∧ 64 ≤ s.rx.rxidx.toNat) := by
  unfold Samples
  decide

theorem test_witness_RxChecksumCommitsOrRejects :
    (let s := rxIn .cksum 0x75 atCksum
     s.rx.rxs = .cksum ∧ Samples s 0x75#8 (takeIn s) ∧ 0x75#8 = 0xFF#8 - s.rx.rxsum ∧
       s.rx.rxlong = false) ∧
    (let s := rxIn .cksum 0x75 { atCksum with rx := { atCksum.rx with rxlong := true } }
     s.rx.rxs = .cksum ∧ Samples s 0x75#8 (takeIn s) ∧ 0x75#8 = 0xFF#8 - s.rx.rxsum ∧
       s.rx.rxlong = true) ∧
    (let s := rxIn .cksum 0x74 atCksum
     s.rx.rxs = .cksum ∧ Samples s 0x74#8 (takeIn s) ∧ 0x74#8 ≠ 0xFF#8 - s.rx.rxsum) := by
  unfold Samples
  decide

theorem test_witness_AcceptedOperationStarts : vr.busy = false := by decide

theorem test_witness_ReservedCodesRefused : idle.busy = false ∧ listening.busy = true := by decide

/-- Lengths 0 and 64 fail the size check, 1 and 63 pass it. -/
theorem test_witness_XferSizeCheck :
    (let s := asking 0x00000001 { vr with txbuf := buf 0 0x10 [] }
     s.busy = false ∧ s.txbuf.frameType ≠ 0x00#8 ∧ s.world.host = [req 0x00000001] ∧
       decode (.request 0x00000001) = .ok .xfer ∧ s.txbuf.length.toNat = 0) ∧
    (let s := asking 0x00000001 { vr with txbuf := buf 64 0x10 [] }
     s.busy = false ∧ s.txbuf.frameType ≠ 0x00#8 ∧ s.world.host = [req 0x00000001] ∧
       64 ≤ s.txbuf.length.toNat) ∧
    (let s := asking 0x00000001 { vr with txbuf := buf 1 0x10 [] }
     s.busy = false ∧ s.txbuf.frameType ≠ 0x00#8 ∧ s.world.host = [req 0x00000001] ∧
       0 < s.txbuf.length.toNat ∧ s.txbuf.length.toNat < 64) ∧
    (let s := asking 0x00000001 { vr with txbuf := buf 63 0x10 [] }
     s.busy = false ∧ s.txbuf.frameType ≠ 0x00#8 ∧ s.world.host = [req 0x00000001] ∧
       0 < s.txbuf.length.toNat ∧ s.txbuf.length.toNat < 64) := by decide

theorem test_witness_TransactionStart :
    (let s := doing (.xfer .start) [] vr
     Running s .xfer (.xfer .start) [] ∧ s.txbuf.frameType ≠ 0x00#8 ∧
       0 < s.txbuf.length.toNat ∧ s.txbuf.length.toNat < 64) ∧
    (let s := doing (.xfer .start) [] { vr with txbuf := buf 64 0x10 [] }
     Running s .xfer (.xfer .start) [] ∧ s.txbuf.frameType ≠ 0x00#8 ∧ 64 ≤ s.txbuf.length.toNat) ∧
    (let s := doing (.xfer .start) [.recv .received] idle
     Running s .receiveResponse (.xfer .start) [.recv .received] ∧ s.txbuf.frameType = 0x00#8) := by
  unfold Running
  decide

theorem test_witness_LoopTestAndDelays :
    (Running (within .selDelay vr) .xfer (.xfer .selDelay) [] ∧
      (within .selDelay vr).world.answers ≠ some 0) ∧
    (let s := within .loop idle
     Running s .xfer (.xfer .loop) [] ∧ s.tx.txs = .idle ∧ s.rx.rxs = .idle ∧ s.xf.retry = 0) ∧
    (Running listening .xfer (.xfer .loop) [] ∧ 0 < listening.xf.retry) := by
  unfold Running
  decide

theorem test_witness_ExchangeThenRetryUpdate :
    (let s := hearing [0x7E, 0x00] (within .exch idle)
     Running s .xfer (.xfer .exch) [] ∧ s.world.answers ≠ some 0 ∧
       s.world.inbound = 0x7E :: [0x00]) ∧
    (let s := within .exch idle
     Running s .xfer (.xfer .exch) [] ∧ s.world.answers ≠ some 0 ∧ s.world.inbound = []) ∧
    Running (within .rx idle) .xfer (.xfer .rx) [] ∧
    Running (within (.after true) idle) .xfer (.xfer (.after true)) [] ∧
    (Running (within .byteDelay idle) .xfer (.xfer .byteDelay) [] ∧
      (within .byteDelay idle).world.answers ≠ some 0) := by
  unfold Running
  decide

theorem test_witness_TransactionEnd :
    (let s := doing (.xfer .finish) [] { idle with xf := { idle.xf with rxonly := true } }
     Running s .xfer (.xfer .finish) [] ∧ s.xf.rxonly = true ∧ s.xf.rxseen = false) ∧
    (let s := doing (.xfer .finish) [] idle
     Running s .xfer (.xfer .finish) [] ∧ s.xf.rxonly = false) ∧
    Running (doing (.xfer (.raise .noData)) [] idle) .xfer (.xfer (.raise .noData)) [] ∧
    Running (doing (.xfer .ret) [.recv .received] idle) .receiveResponse (.xfer .ret)
      [.recv .received] := by
  unfold Running
  decide

theorem test_witness_FrameStepRefinesByteSteps :
    let s := framewise (hearing [0x7E, 0x00, 0x02, 0x8A, 0x00, 0x75, 0x11] listening)
    s.world.host = [] ∧ nextWith (step s) (fun t => decide (t.xf.xresult = 0x004)) = true := by decide

/-- X1: eight zero bytes. -/
theorem test_witness_SilentTransmissionSendsTheFrame :
    let s := asking 0x00000001 (hearing (List.replicate 8 0x00) vr)
    s.busy = false ∧ s.world.host = [req 0x00000001] ∧ decode (.request 0x00000001) = .ok .xfer ∧
      s.world.grain = .byte ∧ s.world.answers = none ∧ s.txbuf.frameType ≠ 0x00#8 ∧ 0 < s.txbuf.length.toNat ∧
      s.txbuf.length.toNat < 64 ∧ s.world.inbound = List.replicate 8 0x00 ++ [] ∧
      (List.replicate 8 (0x00#8 : Byte)).length = s.txbuf.length.toNat + 5 ∧
      0x7E#8 ∉ List.replicate 8 (0x00#8 : Byte) := by decide

/-- T2c: the delimiter one byte too late. T1a: RETRY_BUDGET 0. -/
theorem test_witness_ReceiveOnlyWithoutDelimiterReportsNoData :
    (let s := asking 0x00000001 (hearing (List.replicate 8 0x11 ++ [0x7E]) idle)
     s.busy = false ∧ s.world.host = [req 0x00000001] ∧ decode (.request 0x00000001) = .ok .xfer ∧
       s.world.grain = .byte ∧ s.world.answers = none ∧ s.txbuf.frameType = 0x00#8 ∧
       s.world.inbound = List.replicate 8 0x11 ++ [0x7E] ∧
       (List.replicate 8 (0x11#8 : Byte)).length = s.params.retryBudget ∧
       0x7E#8 ∉ List.replicate 8 (0x11#8 : Byte)) ∧
    (let s := asking 0x00000001 { idle with params := { params with retryBudget := 0 } }
     s.busy = false ∧ s.txbuf.frameType = 0x00#8 ∧ s.world.inbound = [] ++ [] ∧
       ([] : List Byte).length = s.params.retryBudget) := by decide

theorem test_witness_invariant_listening : Invariant listening := by
  unfold Invariant MemoryOk RxbufOk OpsOk LinesOk TxOk RxOk ModeOk ParamsOk
  decide

theorem test_witness_EveryTransactionEnds : Invariant listening ∧ atLoop listening = true ∧ listening.world.answers = none :=
  ⟨test_witness_invariant_listening, by decide⟩

/-- F8 in receive-only mode, and beside a transmission in progress. -/
theorem test_witness_GoodFrameIsReceived :
    encode (.frameModemStatus 2 [0x00] 0x75) = .wire (frameBytes 2 0x8A [0x00] 0x75) ∧
    (Instr.frameModemStatus 2 [0x00] 0x75).wf = true ∧ [(0x00#8 : Byte)].length < 64 ∧
    0x75#8 = 0xFF#8 - byteSum 0x8A [0x00] ∧
    (listening.busy = true ∧ listening.ops = .xfer .loop :: [] ∧ loopCond listening = true ∧
      listening.rx.rxs = .idle ∧ listening.world.answers = none ∧ listening.tx.txs = .idle) ∧
    (let s := within .loop { vr with tx := { txs := .data, txidx := 2, txsum := 0xB3 } }
     s.busy = true ∧ s.ops = .xfer .loop :: [] ∧ loopCond s = true ∧ s.rx.rxs = .idle ∧
       s.world.answers = none ∧
       (s.tx.txs ≠ .idle → badSize s.txbuf.length = false) ∧
       (s.tx.txs = .data → s.tx.txidx.toNat < s.txbuf.length.toNat)) := by decide

/-- T3: a wrong checksum byte. T4: 64 data bytes with a right one. -/
theorem test_witness_BadOrLongFrameIsNotCommitted :
    (encode (.frameModemStatus 2 [0x00] 0x74) = .wire (frameBytes 2 0x8A [0x00] 0x74) ∧
      (Instr.frameModemStatus 2 [0x00] 0x74).wf = true ∧
      0x74#8 ≠ 0xFF#8 - byteSum 0x8A [0x00]) ∧
    (encode (.frameRxIndication 65 (List.replicate 64 0xAA) 0xEF) =
        .wire (frameBytes 65 0x90 (List.replicate 64 0xAA) 0xEF) ∧
      (Instr.frameRxIndication 65 (List.replicate 64 0xAA) 0xEF).wf = true ∧
      64 ≤ (List.replicate 64 (0xAA#8 : Byte)).length) ∧
    (listening.busy = true ∧ listening.ops = .xfer .loop :: [] ∧ loopCond listening = true ∧
      listening.rx.rxs = .idle ∧ listening.world.answers = none ∧ listening.tx.txs = .idle) := by decide

theorem test_witness_FrameWaitsOutsideATransaction :
    encode (.frameModemStatus 2 [0x00] 0x75) = .wire [0x7E, 0x00, 0x02, 0x8A, 0x00, 0x75] ∧
    (atLoop idle && loopCond idle) = false ∧
    (atLoop (within .exch idle) && loopCond (within .exch idle)) = false ∧
    (let s := within .loop idle
     atLoop s = true ∧ (atLoop s && loopCond s) = false) := by
  decide

theorem test_witness_RoundTripLaw :
    (txIn .header vr).tx.txs = .header ∧ 0 < (txIn .header vr).txbuf.length.toNat ∧
    (txIn .header vr).txbuf.length.toNat < 64 ∧ idle.rx.rxs = .idle := by decide

/-- The type byte (position 3) and the last payload byte (position 3 + L) of F1. -/
theorem test_witness_OneChangedByteIsBadChecksum :
    0 < vr.txbuf.length.toNat ∧ vr.txbuf.length.toNat < 64 ∧ idle.rx.rxs = .idle ∧
    (3 ≤ 3 ∧ 3 ≤ 3 + vr.txbuf.length.toNat ∧ (frameOf vr.txbuf)[3]? ≠ some 0x09) ∧
    (3 ≤ 6 ∧ 6 ≤ 3 + vr.txbuf.length.toNat ∧ (frameOf vr.txbuf)[6]? ≠ some 0x53) := by decide

theorem test_witness_SendCommandFillsTxbufAndKeepsResult :
    Running (doing (.send 0x56 0x52 0xFF .start) [] idle) (.sendCommand 0x56 0x52 0xFF)
      (.send 0x56 0x52 0xFF .start) [] ∧
    Running (doing (.send 0x56 0x52 0 .sent) [.doCmd 0x56 0x52 0 .sent] idle)
      (.doCommand 0x56 0x52 0) (.send 0x56 0x52 0 .sent) [.doCmd 0x56 0x52 0 .sent] := by
  unfold Running
  decide

theorem test_witness_ReceiveResponseWaitsThenReceives :
    Running (doing (.recv .start) [] idle) .receiveResponse (.recv .start) [] ∧
    (let s := doing (.recv .waited) [] { idle with res := { idle.res with result := 0x100 } }
     Running s .receiveResponse (.recv .waited) [] ∧ s.res.result &&& 0x100#9 ≠ 0) ∧
    (let s := doing (.recv .waited) [] idle
     Running s .receiveResponse (.recv .waited) [] ∧ s.res.result &&& 0x100#9 = 0) ∧
    Running (doing (.recv .received) [] idle) .receiveResponse (.recv .received) [] := by
  unfold Running
  decide

theorem test_witness_DoCommandSendsFirst :
    Running (doing (.doCmd 0x56 0x52 0 .start) [] idle) (.doCommand 0x56 0x52 0)
      (.doCmd 0x56 0x52 0 .start) [] ∧
    (let s := doing (.doCmd 0x56 0x52 0 .sent) []
        { idle with res := { idle.res with sendResult := 0x001 } }
     Running s (.doCommand 0x56 0x52 0) (.doCmd 0x56 0x52 0 .sent) [] ∧
       s.res.sendResult &&& 0x002#9 = 0) ∧
    (let s := doing (.doCmd 0x56 0x52 0 .sent) []
        { idle with res := { idle.res with sendResult := 0x002 } }
     Running s (.doCommand 0x56 0x52 0) (.doCmd 0x56 0x52 0 .sent) [] ∧
       s.res.sendResult &&& 0x002#9 ≠ 0) := by
  unfold Running
  decide

/-- DC2, DC5, DC4 and DC1 at the verdict: length 3 is too short, length 4 is long enough. -/
theorem test_witness_DoCommandChecksTheResponse :
    (let s := { answered (buf 0 0x00 []) with res := { idle.res with result := 0x008 } }
     Running s (.doCommand 0x56 0x52 0) (.doCmd 0x56 0x52 0 .received) [] ∧
       s.res.result &&& 0x004#9 = 0) ∧
    (let s := answered (buf 3 0x88 [0x55, 0x56, 0x52])
     Running s (.doCommand 0x56 0x52 0) (.doCmd 0x56 0x52 0 .received) [] ∧
       s.res.result &&& 0x004#9 ≠ 0 ∧ ¬(s.rxbuf.frameType = 0x88#8 ∧ 3 < s.rxbuf.length.toNat)) ∧
    (let s := answered (buf 4 0x88 [0x55, 0x56, 0x52, 0x02])
     s.res.result &&& 0x004#9 ≠ 0 ∧ (s.rxbuf.frameType = 0x88#8 ∧ 3 < s.rxbuf.length.toNat) ∧
       s.rxbuf.byte 3 ≠ 0x00#8) ∧
    (let s := answered (buf 6 0x88 [0x55, 0x56, 0x52, 0x00, 0x10, 0xEF])
     s.res.result &&& 0x004#9 ≠ 0 ∧ (s.rxbuf.frameType = 0x88#8 ∧ 3 < s.rxbuf.length.toNat) ∧
       s.rxbuf.byte 3 = 0x00#8) := by
  unfold Running
  decide

theorem test_witness_SetPowerDrivesTheLine : idle.busy = false := by decide

theorem test_witness_PowerRequestWrittenOnlyBySetPower :
    nextWith (step (asking 0x00000005 idle)) (fun t => decide (t.line.pwrReq ≠ idle.line.pwrReq)) =
      true := by decide

/-- H6 (limit reached), H4 (first sample matches), H3 (it does not), and no sample scheduled. -/
theorem test_witness_WaitPowerPollsUntilTheOperand :
    (let s := doing (.waitPower .wake 3) [] { idle with params := { params with pollLimit := some 3 } }
     Running s (.waitPower .wake) (.waitPower .wake 3) [] ∧ s.params.pollLimit = some 3) ∧
    (let s := doing (.waitPower .wake 0) []
        { idle with world := { idle.world with statusIn := [.sleep, .wake] } }
     Running s (.waitPower .wake) (.waitPower .wake 0) [] ∧ s.params.pollLimit ≠ some 0 ∧ s.world.answers ≠ some 0 ∧
       s.world.statusIn = .sleep :: [.wake] ∧ Power.sleep ≠ .wake) ∧
    (let s := doing (.waitPower .wake 2) []
        { idle with world := { idle.world with statusIn := [.wake] }
                    params := { params with pollLimit := some 3 } }
     Running s (.waitPower .wake) (.waitPower .wake 2) [] ∧ s.params.pollLimit ≠ some 2 ∧ s.world.answers ≠ some 0 ∧
       s.world.statusIn = .wake :: []) ∧
    (let s := doing (.waitPower .wake 0) [] idle
     Running s (.waitPower .wake) (.waitPower .wake 0) [] ∧ s.params.pollLimit ≠ some 0 ∧ s.world.answers ≠ some 0 ∧
       s.world.statusIn = []) := by
  unfold Running
  decide

/-- H11, H10, H9, and no sample scheduled. -/
theorem test_witness_WaitAttnPollsUntilAsserted :
    (let s := doing (.waitAttn 2) [] { idle with params := { params with pollLimit := some 2 } }
     Running s .waitAttn (.waitAttn 2) [] ∧ s.params.pollLimit = some 2) ∧
    (let s := doing (.waitAttn 0) [] { idle with world := { idle.world with attnIn := [false, true] } }
     Running s .waitAttn (.waitAttn 0) [] ∧ s.params.pollLimit ≠ some 0 ∧ s.world.answers ≠ some 0 ∧
       s.world.attnIn = false :: [true]) ∧
    (let s := doing (.waitAttn 0) [.recv .waited] { idle with world := { idle.world with attnIn := [true] } }
     Running s .receiveResponse (.waitAttn 0) [.recv .waited] ∧ s.params.pollLimit ≠ some 0 ∧ s.world.answers ≠ some 0 ∧
       s.world.attnIn = true :: []) ∧
    (let s := doing (.waitAttn 0) [] idle
     Running s .waitAttn (.waitAttn 0) [] ∧ s.params.pollLimit ≠ some 0 ∧ s.world.answers ≠ some 0 ∧ s.world.attnIn = []) := by
  unfold Running
  decide

/-- H5, and the same for the attention line. -/
theorem test_witness_UnmatchedWaitStaysBusy :
    (let s := doing (.waitPower .wake 0) []
      { idle with world := { idle.world with statusIn := [.sleep, .sleep, .wake] } }
     Running s (.waitPower .wake) (.waitPower .wake 0) [] ∧ s.params.pollLimit = none ∧
      s.world.answers = none ∧ s.world.host = [] ∧ s.world.statusIn = [.sleep, .sleep] ++ [.wake] ∧
      Power.wake ∉ [Power.sleep, Power.sleep]) ∧
    (let s := doing (.waitAttn 0) [.recv .waited]
      { idle with world :=
        { idle.world with attnIn := [false, false, true], host := [.pass, .pass, .reset] } }
     Running s .receiveResponse (.waitAttn 0) [.recv .waited] ∧ s.params.pollLimit = none ∧
      s.world.answers = none ∧ s.world.host = List.replicate 2 .pass ++ [.reset] ∧
      s.world.attnIn = [false, false] ++ [true] ∧
      true ∉ [false, false]) := by
  unfold Running
  decide

theorem test_witness_ResetPulseMakesThreeEvents :
    Running (doing (.pulse .start) [] idle) .resetPulse (.pulse .start) [] ∧
    (Running (doing (.pulse .hold) [] idle) .resetPulse (.pulse .hold) [] ∧
      (doing (.pulse .hold) [] idle).world.answers ≠ some 0) ∧
    Running (doing (.pulse .release) [.configure .pulsed] idle) .configure (.pulse .release)
      [.configure .pulsed] ∧
    (let s := asking 0x00000008 idle
     s.busy = false ∧ s.world.host = [req 0x00000008] ∧ s.world.answers = none ∧
       decode (.request 0x00000008) = .ok .resetPulse) := by
  unfold Running
  decide

/-- The saturated counter among them. -/
theorem test_witness_ConfigureAttempt :
    Running (doing (.configure .start) [] idle) .configure (.configure .start) [] ∧
    (let s := doing (.configure .attempt) [] { idle with seq := { idle.seq with seqAttempts := 0xFFFF } }
     Running s .configure (.configure .attempt) [] ∧ s.seq.seqAttempts.toNat + 1 = 65536) ∧
    Running (doing (.configure .pulsed) [] idle) .configure (.configure .pulsed) [] := by
  unfold Running
  decide

/-- P3: attempt 2's announcement is good, attempt 1's is not; the three entries' gates. -/
theorem test_witness_ConfigureGates :
    (let s := doing (.configure .harvested) []
        { idle with rxbuf := buf 1 0x8A [0x00], res := { idle.res with result := 0x004 } }
     Running s .configure (.configure .harvested) [] ∧ s.res.result &&& 0x004#9 ≠ 0 ∧
       s.rxbuf.frameType = 0x8A#8 ∧ 0 < s.rxbuf.length.toNat ∧ s.rxbuf.byte 0 = 0x00#8) ∧
    (let s := doing (.configure .harvested) []
        { idle with rxbuf := buf 1 0x8A [0x06], res := { idle.res with result := 0x004 } }
     Running s .configure (.configure .harvested) [] ∧ s.rxbuf.byte 0 ≠ 0x00#8) ∧
    (let s := doing (.configure .commanded) [] { idle with res := { idle.res with result := 0x086 } }
     Running s .configure (.configure .commanded) [] ∧ s.res.result ≠ 0x006#9) ∧
    (let s := doing (.configure .commanded) [] { idle with res := { idle.res with result := 0x006 } }
     Running s .configure (.configure .commanded) [] ∧ s.res.result = 0x006#9 ∧ s.seq.seqIdx = 0) ∧
    (let s := doing (.configure .commanded) []
        { idle with res := { idle.res with result := 0x006 }, seq := { idle.seq with seqIdx := 1 } }
     s.res.result = 0x006#9 ∧ s.seq.seqIdx = 1) ∧
    (let s := doing (.configure .commanded) []
        { idle with res := { idle.res with result := 0x006 }, seq := { idle.seq with seqIdx := 2 } }
     s.res.result = 0x006#9 ∧ s.seq.seqIdx = 2) := by
  unfold Running
  decide

/-- An instance whose first entry has `n` parameter bytes. -/
def withEntry (n : Nat) : State :=
  doing (.configure .command) []
    { idle with params :=
      { params with configSeq := #v[⟨0x44, 0x36, List.replicate n 0x00⟩, ⟨0x44, 0x37, []⟩,
          ⟨0x53, 0x4D, []⟩] } }

/-- 60 parameter bytes are the most. -/
theorem test_witness_ConfigureIssuesTheEntry :
    (Running (withEntry 60) .configure (.configure .command) [] ∧
      ((withEntry 60).params.configSeq[(withEntry 60).seq.seqIdx]).params.length ≤ 60) ∧
    (Running (withEntry 61) .configure (.configure .command) [] ∧
      60 < ((withEntry 61).params.configSeq[(withEntry 61).seq.seqIdx]).params.length) := by
  unfold Running
  decide

theorem test_witness_EveryStepKeepsInvariant :
    Invariant listening ∧ nextWith (step listening) (fun t => decide (t.ops = [.xfer .exch])) = true :=
  ⟨test_witness_invariant_listening, by decide⟩

theorem test_witness_NoStepFaultsUnderInvariant : Invariant listening := test_witness_invariant_listening

/-- XFER with {SIZE_ERROR} at its return. -/
def refusedSize : State :=
  doing (.xfer .ret) [] { idle with xf := { idle.xf with xresult := 0x001 } }

theorem test_witness_XresultOk_listening : XresultOk listening := by
  refine ⟨fun p h => ?_, fun h => absurd h (by decide)⟩
  cases (show some (Act.xfer .loop) = some (.xfer p) from h)
  unfold XresultAt ListeningFlags SendingFlags receivedSet
  decide

theorem test_witness_XresultOk_refusedSize : XresultOk refusedSize := by
  refine ⟨fun p h => ?_, fun _ => .inr (.inl rfl)⟩
  cases (show some (Act.xfer .ret) = some (.xfer p) from h)
  exact .inl rfl

theorem test_witness_invariant_refusedSize : Invariant refusedSize := by
  unfold Invariant MemoryOk RxbufOk OpsOk LinesOk TxOk RxOk ModeOk ParamsOk
  decide

theorem test_witness_EveryStepKeepsXresultReachable :
    (Invariant listening ∧ XresultOk listening ∧
      nextWith (step listening) (fun t => decide (t.ops = [.xfer .exch])) = true) ∧
    (Invariant refusedSize ∧ XresultOk refusedSize ∧ refusedSize.ops = .xfer .ret :: [] ∧
      refusedSize.world.host = [] ∧
      nextWith (step refusedSize) (fun t => decide (t.ops = [] ∧ t.res.result = 0x001)) = true) :=
  ⟨⟨test_witness_invariant_listening, test_witness_XresultOk_listening, by decide⟩,
    test_witness_invariant_refusedSize, test_witness_XresultOk_refusedSize, by decide⟩

theorem test_witness_RxbufWrittenOnlyByCommit :
    nextWith (step { rxIn .cksum 0x75 atCksum with busy := true, ops := [.xfer .rx] })
      (fun t => decide (t.rxbuf.length = 1)) = true ∧
    nextWith (step idle) (fun t => decide (t.rxbuf = idle.rxbuf)) = true := by decide

theorem test_witness_TransactionLeavesTheRestAlone :
    inTransaction listening = true ∧
    nextWith (step listening) (fun t => decide (t.txbuf = listening.txbuf)) = true ∧
    (hosting [.reset] listening).world.host = .reset :: [] := by decide

end Sys2Proof.Tests
end

section
/-! The framer's state-steps as instructions (spec/40_framer.md sections 1 and 2): what a state-step that
fires answers, for any body that leaves OPS alone, and from it the steps that are one assignment per
register. -/

namespace Sys2Proof.Machine

open Sys2Proof

variable {s t u : State} {b : Byte}

/-! ## XFER's advance behind a state-step -/

/-- XFER's advance reads and writes OPS only, so it is the same wherever OPS is the same. -/
theorem leaveTx_of_ops_eq (h : t.ops = s.ops) :
    leaveTx t = { t with ops := (leaveTx s).ops } := by
  unfold leaveTx
  rw [h]
  split
  · rfl
  · rw [← h]

theorem leaveRx_of_ops_eq (wasIdle : Bool) (h : t.ops = s.ops) :
    leaveRx wasIdle t = { t with ops := (leaveRx wasIdle s).ops } := by
  unfold leaveRx
  rw [h]
  split
  · rfl
  · rw [← h]

/-! ## State-steps that fire -/

/-- A transmit state-step in its state answers its body's state, with XFER's advance on OPS. -/
theorem fireTx_of_next {st : TxState} {body : State → Out} (hst : s.tx.txs = st)
    (hbody : body s = .next t) (hops : t.ops = s.ops) :
    fireTx st body s = .next { t with ops := (leaveTx s).ops } := by
  rw [fireTx, if_pos hst, hbody, andThen_next, leaveTx_of_ops_eq hops]

/-- A receive state-step in its state answers its body's state on the byte it samples, with XFER's
advance on OPS. -/
theorem fireRx_of_samples {st : RxState} {body : Byte → State → State} (hst : s.rx.rxs = st)
    (hin : Samples s b u) (hops : (body b u).ops = u.ops) :
    fireRx st body s =
      .next { body b u with ops := (leaveRx (decide (st = .idle)) s).ops } := by
  obtain ⟨rfl, rfl⟩ := (samples_iff s).1 hin
  rw [fireRx, if_pos hst, leaveRx_of_ops_eq _ (hops.trans (takeIn_ops s))]

/-- A byte on XCH_IN is the one sampled, and XCH_IN is empty behind the sample (R21). -/
theorem samples_of_some (h : s.line.xchIn = some b) :
    Samples s b { s with line := { s.line with xchIn := none } } := .inl ⟨h, rfl⟩

/-! ## RX_IDLE -/

theorem rxIdle_of_delim (h : b = Config.delim) :
    rxIdle b s = { s with
      rx := { s.rx with rxs := .lenHi, rxlong := false }
      xf := { s.xf with rxseen := true, retry := 0 } } := if_pos h

theorem rxIdle_of_ne (h : b ≠ Config.delim) : rxIdle b s = s := if_neg h

end Sys2Proof.Machine

open Sys2Proof Sys2Proof.Machine

/-! ## Transmit state-steps -/

/-- Settles O14: the body leaves FILL on XCH_OUT (R131), and XFER's advance is all that touches OPS. -/
theorem txIdleReturnsFill : Obligations.TxIdleReturnsFill := by
  intro s hst
  calc exec .stepTxIdle s
      = fireTx .idle txIdle s := rfl
    _ = .next { present Config.fill s with ops := (leaveTx s).ops } := fireTx_of_next hst rfl rfl

/-- Settles O15, state by state: each of the three bodies presents its byte and moves TXS on
(R132 to R134). -/
theorem txHeaderAndLengthBytes : Obligations.TxHeaderAndLengthBytes := by
  intro s
  refine ⟨fun hst => ?header, fun hst => ?lenHi, fun hst => ?lenLo⟩
  case header =>
    calc exec .stepTxHeader s
        = fireTx .header txHeader s := rfl
      _ = .next { setTxs .lenHi (present Config.delim s) with ops := (leaveTx s).ops } :=
        fireTx_of_next hst rfl rfl
  case lenHi =>
    calc exec .stepTxLenHi s
        = fireTx .lenHi txLenHi s := rfl
      _ = .next { setTxs .lenLo (present (hiByte (wireLength s.txbuf.length)) s) with
            ops := (leaveTx s).ops } := fireTx_of_next hst rfl rfl
  case lenLo =>
    calc exec .stepTxLenLo s
        = fireTx .lenLo txLenLo s := rfl
      _ = .next { setTxs .ftype (present (loByte (wireLength s.txbuf.length)) s) with
            ops := (leaveTx s).ops } := fireTx_of_next hst rfl rfl

/-- Settles O16: the body presents the type byte and rewrites all three TX registers (R135). -/
theorem txTypeStartsSum : Obligations.TxTypeStartsSum := by
  intro s hst
  calc exec .stepTxType s
      = fireTx .ftype txType s := rfl
    _ = .next { present s.txbuf.frameType s with
          tx := { txs := if 0 < s.txbuf.length.toNat then .data else .cksum
                  txidx := 0
                  txsum := s.txbuf.frameType }
          ops := (leaveTx s).ops } := (fireTx_of_next (body := txType) hst rfl rfl :)

/-! ## Receive state-steps -/

/-- Settles O20: on the sampled byte, by whether it is the delimiter (R150). -/
theorem rxIdleWaitsForDelimiter : Obligations.RxIdleWaitsForDelimiter := by
  intro s b hst hin
  have hexec : exec .stepRxIdle s =
      .next { rxIdle b { s with line := { s.line with xchIn := none } } with
        ops := (leaveRx true s).ops } :=
    fireRx_of_samples hst (samples_of_some hin) (rxIdle_ops _ _)
  constructor
  · intro hdelim
    rw [hexec, rxIdle_of_delim hdelim]
  · intro hother
    rw [hexec, rxIdle_of_ne hother]

/-- Settles O21: both bodies are assignments to RXA and the RX registers from the sampled byte
(R151, R155). -/
theorem rxHighLengthAndTypeBytes : Obligations.RxHighLengthAndTypeBytes := by
  intro s b hin
  refine ⟨fun hst => ?lenHi, fun hst => ?ftype⟩
  case lenHi =>
    calc exec .stepRxLenHi s
        = fireRx .lenHi rxLenHi s := rfl
      _ = .next { rxLenHi b { s with line := { s.line with xchIn := none } } with
            ops := (leaveRx false s).ops } :=
        fireRx_of_samples hst (samples_of_some hin) (rxLenHi_ops _ _)
  case ftype =>
    calc exec .stepRxType s
        = fireRx .ftype rxType s := rfl
      _ = .next { rxType b { s with line := { s.line with xchIn := none } } with
            ops := (leaveRx false s).ops } :=
        fireRx_of_samples hst (samples_of_some hin) (rxType_ops _ _)

end

section
/-! The power request line (spec/43_power.md R231): what a micro-step, an exchange step, a request and the
host's turn do to PWR_REQ, and from it what a step does. -/

namespace Sys2Proof.Machine

open Sys2Proof

variable {s t : State}

/-! ## The host's turn and the host's requests -/

/-- Of the host's own actions only a block reset reaches the lines. -/
theorem hostTurn_line (h : hostTurn s = some (.next t)) :
    t.line = s.line ∨ ∃ r, s.world.host = .reset :: r := by
  cases hw : s.world.host with
  | nil => simp [hostTurn_none hw] at h
  | cons act r =>
    cases act with
    | reset => exact .inr ⟨r, rfl⟩
    | pass => simp [hostTurn_pass hw] at h
    | request w => simp [hostTurn, hw] at h
    | awaitIdle =>
      simp only [hostTurn, hw, Option.ite_none_left_eq_some, Option.some.injEq,
        Host.Outcome.next.injEq] at h
      exact .inl (h.2 ▸ rfl)
    | write a bytes =>
      simp only [hostTurn, hw, Option.some.injEq, hostWrite] at h
      split_ifs at h
      cases h
      exact .inl rfl
    | read b a n =>
      simp only [hostTurn, hw, Option.some.injEq, hostRead] at h
      split_ifs at h
      cases h
      exact .inl rfl
    | readReg q =>
      simp only [hostTurn, hw, Option.some.injEq, hostReadReg] at h
      split_ifs at h
      cases h
      exact .inl rfl

/-- A request word names a host operation, or has a reserved code (R105, R106). -/
theorem decodeRequest_cases (w : ReqWord) :
    (∃ a : Act, decodeRequest w = a.instr) ∨ ∀ s, exec (decodeRequest w) s = reserved s := by
  unfold decodeRequest
  split
  · exact .inl ⟨.xfer .start, rfl⟩
  · exact .inl ⟨.send _ _ _ .start, rfl⟩
  · exact .inl ⟨.recv .start, rfl⟩
  · exact .inl ⟨.doCmd _ _ _ .start, rfl⟩
  · exact .inl ⟨.setPower _, rfl⟩
  · exact .inl ⟨.waitPower _ 0, rfl⟩
  · exact .inl ⟨.waitAttn 0, rfl⟩
  · exact .inl ⟨.pulse .start, rfl⟩
  · exact .inl ⟨.configure .start, rfl⟩
  all_goals exact .inr fun _ => rfl

/-- A request accepted in BUSY = 0 makes the first micro-step of the operation it names. -/
theorem exec_request_next {w : ReqWord} (hb : s.busy = false)
    (h : exec (decodeRequest w) s = .next t) :
    ∃ a : Act, a.instr = decodeRequest w ∧ move a { s with busy := true, ops := [a] } = .next t := by
  rcases decodeRequest_cases w with ⟨a, ha⟩ | hr
  · obtain ⟨b, hinstr, -, hexec⟩ := exec_idle a hb
    exact ⟨b, hinstr.trans ha.symm, by rw [← hexec, ← ha, h]⟩
  · simp [hr, reserved, hb] at h

/-! ## Micro-steps that leave PWR_REQ alone -/

/-- A call on the environment changes PWR_REQ no more than what runs behind it does. -/
theorem calling_pwrReq {f : State → State} (h : ∀ u, (f u).line.pwrReq = u.line.pwrReq) :
    (calling f s).line.pwrReq = s.line.pwrReq := by
  unfold calling
  split
  · rfl
  · exact h (countCall s)

theorem raiseFlag_pwrReq (f : Flag) : (raiseFlag f s).line.pwrReq = s.line.pwrReq := by
  rw [raiseFlag_frame]

theorem raiseNow_pwrReq {f : Flag} (h : raiseNow f s = .next t) :
    t.line.pwrReq = s.line.pwrReq := by
  cases h
  rw [leaveRaise_line, raiseFlag_pwrReq]

theorem xferStart_pwrReq : (xferStart s).line.pwrReq = s.line.pwrReq := by
  unfold xferStart
  split
  · simp
  · split <;> simp

theorem xferLoop_pwrReq (h : xferLoop s = .next t) : t.line.pwrReq = s.line.pwrReq := by
  unfold xferLoop at h
  split at h
  · obtain ⟨u, hu, hleave⟩ := andThen_eq_next.1 h
    obtain ⟨c, q, x, -, rfl⟩ := txStep_frame hu
    cases hleave
    rw [leaveTx_line]
  · cases h
    simp

theorem xferExch_pwrReq : (xferExch s).line.pwrReq = s.line.pwrReq :=
  calling_pwrReq fun u => by simp

theorem xferRx_pwrReq : (xferRx s).line.pwrReq = s.line.pwrReq := by simp [xferRx]

theorem xferAfter_pwrReq (w : Bool) : (xferAfter w s).line.pwrReq = s.line.pwrReq := by
  simp [xferAfter]

theorem xferByteDelay_pwrReq : (xferByteDelay s).line.pwrReq = s.line.pwrReq :=
  calling_pwrReq fun _ => rfl

theorem xferFinish_pwrReq : (xferFinish s).line.pwrReq = s.line.pwrReq := by
  unfold xferFinish
  split <;> rfl

theorem xferMove_pwrReq {p : XferPos} (h : xferMove p s = .next t) :
    t.line.pwrReq = s.line.pwrReq := by
  cases p with
  | start => cases h; exact xferStart_pwrReq
  | selDelay => cases h; exact calling_pwrReq fun _ => rfl
  | loop => exact xferLoop_pwrReq h
  | exch => cases h; exact xferExch_pwrReq
  | rx => cases h; exact xferRx_pwrReq
  | after w => cases h; exact xferAfter_pwrReq w
  | byteDelay => cases h; exact xferByteDelay_pwrReq
  | finish => cases h; exact xferFinish_pwrReq
  | raise f => exact raiseNow_pwrReq h
  | ret => cases h; rfl

theorem sendMove_pwrReq (c0 c1 plen : Byte) (p : SendPos) :
    (sendMove c0 c1 plen p s).line.pwrReq = s.line.pwrReq := by
  cases p <;> rfl

theorem recvMove_pwrReq (p : RecvPos) : (recvMove p s).line.pwrReq = s.line.pwrReq := by
  cases p with
  | start => rfl
  | waited =>
    unfold recvMove
    dsimp only
    split <;> rfl
  | received => rfl

theorem doMove_pwrReq (c0 c1 plen : Byte) (p : DoPos) :
    (doMove c0 c1 plen p s).line.pwrReq = s.line.pwrReq := by
  cases p with
  | start => rfl
  | sent =>
    unfold doMove
    dsimp only
    split <;> rfl
  | received =>
    obtain ⟨q, hq⟩ := doVerdict_frame s.res.result s
    simp [doMove, hq]

theorem waitPowerMove_pwrReq (st : Power) (n : Nat) :
    (waitPowerMove st n s).line.pwrReq = s.line.pwrReq := by
  unfold waitPowerMove
  split
  · rfl
  · refine calling_pwrReq fun u => ?_
    split <;> simp [waitDone]

theorem waitAttnMove_pwrReq (n : Nat) : (waitAttnMove n s).line.pwrReq = s.line.pwrReq := by
  unfold waitAttnMove
  split
  · rfl
  · refine calling_pwrReq fun u => ?_
    split <;> simp [waitDone]

theorem pulseMove_pwrReq (p : PulsePos) : (pulseMove p s).line.pwrReq = s.line.pwrReq := by
  cases p with
  | start => rfl
  | hold => exact calling_pwrReq fun _ => rfl
  | release => rfl

theorem confMove_pwrReq {p : ConfPos} (h : confMove p s = .next t) :
    t.line.pwrReq = s.line.pwrReq := by
  cases p with
  | start | attempt | pulsed => cases h; rfl
  | harvested =>
    cases h
    unfold confHarvested
    split <;> rfl
  | command =>
    replace h : confCommand s = .next t := h
    unfold confCommand at h
    split at h
    · cases h; rfl
    · cases h
  | commanded =>
    cases h
    unfold confCommanded
    split
    · split <;> rfl
    · rfl

/-! ## What a micro-step and an exchange step do to PWR_REQ -/

/-- A micro-step writes PWR_REQ only when it is SET_POWER's, with the operand. -/
theorem move_pwrReq {a : Act} (h : move a s = .next t) :
    t.line.pwrReq = s.line.pwrReq ∨ ∃ st, a = .setPower st ∧ t.line.pwrReq = st := by
  cases a with
  | setPower st => cases h; exact .inr ⟨st, rfl, rfl⟩
  | xfer p => exact .inl (xferMove_pwrReq h)
  | send c0 c1 plen p => cases h; exact .inl (sendMove_pwrReq c0 c1 plen p)
  | recv p => cases h; exact .inl (recvMove_pwrReq p)
  | doCmd c0 c1 plen p => cases h; exact .inl (doMove_pwrReq c0 c1 plen p)
  | waitPower st n => cases h; exact .inl (waitPowerMove_pwrReq st n)
  | waitAttn n => cases h; exact .inl (waitAttnMove_pwrReq n)
  | pulse p => cases h; exact .inl (pulseMove_pwrReq p)
  | configure p => exact .inl (confMove_pwrReq h)

theorem exchangeRound_pwrReq (h : exchangeRound s = .next t) :
    t.line.pwrReq = s.line.pwrReq := by
  unfold exchangeRound at h
  split at h
  · obtain ⟨u, hu, hrest⟩ := andThen_eq_next.1 h
    rw [← xferLoop_pwrReq hu]
    split at hrest
    · cases hrest; rfl
    · cases hrest
      rw [xferByteDelay_pwrReq, xferAfter_pwrReq, xferRx_pwrReq, xferExch_pwrReq]
  · cases h; rfl

theorem exchangeRounds_pwrReq {n : Nat} (h : exchangeRounds n s = .next t) :
    t.line.pwrReq = s.line.pwrReq := by
  induction n generalizing s with
  | zero => cases h; rfl
  | succ n ih =>
    obtain ⟨u, hu, hrest⟩ := andThen_eq_next.1 h
    exact (ih hrest).trans (exchangeRound_pwrReq hu)

end Sys2Proof.Machine

open Sys2Proof Sys2Proof.Machine

/-- Settles O47, by what a step is: the host's turn writes PWR_REQ only in a block reset, a request and a
micro-step only as SET_POWER, a frame taken whole and an idle step never (R231). -/
theorem powerRequestWrittenOnlyBySetPower : Obligations.PowerRequestWrittenOnlyBySetPower := by
  intro s t h
  rcases step_cases s with ⟨o, hturn, hstep⟩ | ⟨hb, w, r, hw, hstep⟩ | ⟨hb, ho, hstep⟩ |
    ⟨-, n, -, -, -, hstep⟩ | ⟨-, hstep⟩ <;> rw [hstep] at h
  · -- the host's turn
    subst h
    exact (hostTurn_line hturn).imp (congrArg Lines.pwrReq) fun hreset => .inr (.inr hreset)
  · -- a request in BUSY = 0
    obtain ⟨a, hinstr, hmove⟩ := exec_request_next (s := popHost s) hb h
    rcases move_pwrReq hmove with hkeep | ⟨st, rfl, hset⟩
    · exact .inl hkeep
    · exact .inr (.inr (.inl ⟨w, st, r, hw, hb, hinstr.symm, hset⟩))
  · -- a micro-step
    obtain ⟨a, r, hops⟩ := List.exists_cons_of_ne_nil ho
    have hmove : move a (dropPass s) = .next t := by simpa [resume, hops] using h
    rcases move_pwrReq hmove with hkeep | ⟨st, rfl, hset⟩
    · exact .inl (by rw [hkeep, dropPass_line])
    · exact .inr (.inl ⟨st, by rw [hops]; rfl, hb, hset⟩)
  · -- a whole frame taken from the wire
    exact .inl (by rw [exchangeRounds_pwrReq h, dropPass_line])
  · -- an idle step
    cases h
    exact .inl (by rw [dropPass_line])

end
section
/-! Words and frames (spec/30_encoding.md): the fields of a request word, a frame read back from its bytes,
and what a frame's bytes determine. -/

namespace Sys2Proof

/-! ## The request word (R104) -/

section

variable (c0 c1 plen : Byte) (junk : BitVec 3) (st : BitVec 1) (op : BitVec 4)

theorem request_op : (c0 ++ c1 ++ plen ++ junk ++ st ++ op : ReqWord).extractLsb' 0 4 = op :=
  BitVec.extractLsb'_append_eq_right

theorem reqPlen_append : reqPlen (c0 ++ c1 ++ plen ++ junk ++ st ++ op) = plen := by
  unfold reqPlen
  rw [BitVec.extractLsb'_append_eq_of_le (by decide),
    BitVec.extractLsb'_append_eq_of_le (by decide), BitVec.extractLsb'_append_eq_of_le (by decide)]
  exact BitVec.extractLsb'_append_eq_right

theorem reqC1_append : reqC1 (c0 ++ c1 ++ plen ++ junk ++ st ++ op) = c1 := by
  unfold reqC1
  rw [BitVec.extractLsb'_append_eq_of_le (by decide),
    BitVec.extractLsb'_append_eq_of_le (by decide), BitVec.extractLsb'_append_eq_of_le (by decide),
    BitVec.extractLsb'_append_eq_of_le (by decide)]
  exact BitVec.extractLsb'_append_eq_right

theorem reqC0_append : reqC0 (c0 ++ c1 ++ plen ++ junk ++ st ++ op) = c0 := by
  unfold reqC0
  rw [BitVec.extractLsb'_append_eq_of_le (by decide),
    BitVec.extractLsb'_append_eq_of_le (by decide), BitVec.extractLsb'_append_eq_of_le (by decide),
    BitVec.extractLsb'_append_eq_of_le (by decide)]
  exact BitVec.extractLsb'_append_eq_left

end

theorem reqSt_append (c0 c1 plen : Byte) (junk : BitVec 3) (st : Power) (op : BitVec 4) :
    reqSt (c0 ++ c1 ++ plen ++ junk ++ powerBit st ++ op) = st := by
  unfold reqSt
  rw [BitVec.getLsbD_append, if_neg (by decide), BitVec.getLsbD_append, if_pos (by decide)]
  cases st <;> rfl

/-! ## Frames on the wire (R90, R99) -/

/-- A frame stands at the front of its own bytes, whatever follows them. -/
theorem decodeFrame_frameBytes {w : Half} (t : Byte) {payload : List Byte} (ck : Byte)
    (rest : List Byte) (h : payload.length = w.toNat - 1) :
    decodeFrame (frameBytes w t payload ck ++ rest) = .ok (mkFrame w t payload ck, rest) := by
  have hbody : takeBody (dataCount w) (payload ++ ck :: rest) = some (payload, ck, rest) := by
    simp [takeBody, dataCount, ← h]
  simp [decodeFrame, frameBytes, Machine.joinBytes_hi_lo, hbody]

theorem decode_wire_frameBytes {w : Half} (t : Byte) {payload : List Byte} (ck : Byte)
    (h : payload.length = w.toNat - 1) :
    decode (.wire (frameBytes w t payload ck)) = .ok (mkFrame w t payload ck) := by
  have hframe := decodeFrame_frameBytes t ck [] h
  rw [List.append_nil] at hframe
  simp [decode, hframe]

theorem payloadFits_iff (w : Half) (payload : List Byte) :
    payloadFits w payload = true ↔ payload.length = w.toNat - 1 := beq_iff_eq

/-- A type without a row of its own is FRAME_GENERIC's (R100). -/
theorem mkFrame_generic {w : Half} {t : Byte} {payload : List Byte} {ck : Byte}
    (h : namedTypes.contains t = false) : mkFrame w t payload ck = .frameGeneric w t payload ck := by
  simp only [namedTypes, List.contains_eq_mem, List.mem_cons, List.not_mem_nil, or_false,
    decide_eq_false_iff_not, not_or] at h
  simp [mkFrame, h]

/-- The frame instruction of a type has the type's bytes as its code, whichever row it is. -/
theorem encode_mkFrame (w : Half) (t : Byte) (payload : List Byte) (ck : Byte) :
    encode (mkFrame w t payload ck) = .wire (frameBytes w t payload ck) := by
  unfold mkFrame
  split_ifs <;> subst_vars <;> rfl

/-- The frame instruction of a type is well formed when the payload has the length W announces. -/
theorem mkFrame_wf {w : Half} {payload : List Byte} (t ck : Byte)
    (h : payload.length = w.toNat - 1) : (mkFrame w t payload ck).wf = true := by
  have hfits := (payloadFits_iff w payload).2 h
  by_cases hnamed : namedTypes.contains t = false
  · rw [mkFrame_generic hnamed]
    simpa [Instr.wf, hfits] using hnamed
  · unfold mkFrame
    split_ifs
    case neg => simp_all [namedTypes]
    all_goals exact hfits

/-- What follows the type byte is the data bytes and the checksum byte. -/
theorem takeBody_eq_some {n : Nat} {bytes payload rest : List Byte} {ck : Byte}
    (h : takeBody n bytes = some (payload, ck, rest)) :
    payload.length = n ∧ bytes = payload ++ ck :: rest := by
  unfold takeBody at h
  split at h
  · cases h
  · rename_i hdrop
    cases h
    have hlen : n < bytes.length := by
      rw [← Nat.sub_pos_iff_lt, ← List.length_drop, hdrop]
      simp
    exact ⟨List.length_take_of_le hlen.le, by rw [← hdrop, List.take_append_drop]⟩

/-- A decoded frame's payload has the length its two length bytes announce (R99). -/
theorem decodeFrame_eq_ok {bs rest : List Byte} {i : Instr} (h : decodeFrame bs = .ok (i, rest)) :
    ∃ w t payload ck, i = mkFrame w t payload ck ∧ payload.length = w.toNat - 1 ∧
      bs = frameBytes w t payload ck ++ rest := by
  unfold decodeFrame at h
  split at h
  · rename_i d wh wl t body
    split_ifs at h with hd
    split at h
    · cases h
    · rename_i payload ck rest' hbody
      cases h
      obtain ⟨hlen, hbytes⟩ := takeBody_eq_some hbody
      refine ⟨_, _, _, _, rfl, hlen, ?_⟩
      simp [frameBytes, hd, hbytes]
  · cases h
  · split_ifs at h

/-- A frame's bytes determine its fields. -/
theorem frameBytes_inj {w w' : Half} {t t' ck ck' : Byte} {payload payload' : List Byte}
    (h : frameBytes w t payload ck = frameBytes w' t' payload' ck') :
    w = w' ∧ t = t' ∧ payload = payload' ∧ ck = ck' := by
  simp only [frameBytes, List.cons.injEq, true_and] at h
  obtain ⟨hhi, hlo, ht, hbody⟩ := h
  obtain ⟨hp, hck⟩ := List.append_inj' hbody rfl
  refine ⟨?_, ht, hp, List.singleton_inj.1 hck⟩
  rw [← Machine.joinBytes_hi_lo w, hhi, hlo, Machine.joinBytes_hi_lo]

/-- An instruction whose code is a frame is the frame instruction of some type, and its bytes are all
it says. -/
theorem encode_eq_wire {i : Instr} {bytes : List Byte} (h : encode i = .wire bytes) :
    (∃ w t payload ck, bytes = frameBytes w t payload ck ∧
      (i.wf = true → payload.length = w.toNat - 1)) ∧
    ∀ s, Machine.exec i s = Machine.receiveBytes bytes s := by
  cases i with
  | frameGeneric w t payload ck =>
    cases h
    refine ⟨⟨w, t, payload, ck, rfl, fun hwf => ?_⟩, fun _ => rfl⟩
    exact (payloadFits_iff _ _).1 ((Bool.and_eq_true _ _).mp hwf).1
  | frameAtCommand w payload ck | frameAtResponse w payload ck | frameModemStatus w payload ck
  | frameTxRequest w payload ck | frameRxIndication w payload ck =>
    cases h
    exact ⟨⟨w, _, payload, ck, rfl, (payloadFits_iff _ _).1⟩, fun _ => rfl⟩
  | _ => cases h

/-! ## State codes and flag codes -/

theorem decode_txStateCode (st : TxState) : decode (.txState (txStateCode st)) = .ok (txInstr st) := by
  cases st <;> rfl

theorem decode_rxStateCode (st : RxState) : decode (.rxState (rxStateCode st)) = .ok (rxInstr st) := by
  cases st <;> rfl

theorem decode_flagCode (f : Flag) : decode (.flag (flagCode f)) = .ok (flagInstr f) := by
  cases f <;> rfl

/-- Only the nine flags have a code. -/
theorem flagCode_of_flagOfCode {c : FlagSet} {f : Flag} (h : flagOfCode c = some f) :
    c = flagCode f := by
  unfold flagOfCode at h
  split at h <;> cases h <;> exact BitVec.eq_of_toNat_eq (by assumption)

end Sys2Proof

open Sys2Proof Sys2Proof.Machine

/-- Settles O3: the sixteen operation codes, each with the fields it uses read back from their places. -/
theorem requestWordNamesOperationByLowBits : Obligations.RequestWordNamesOperationByLowBits := by
  intro c0 c1 plen junk st w
  have hop (op : BitVec 4) : (w op).extractLsb' 0 4 = op := request_op ..
  have hc0 (op : BitVec 4) : reqC0 (w op) = c0 := reqC0_append ..
  have hc1 (op : BitVec 4) : reqC1 (w op) = c1 := reqC1_append ..
  have hplen (op : BitVec 4) : reqPlen (w op) = plen := reqPlen_append ..
  have hst (op : BitVec 4) : reqSt (w op) = st := reqSt_append ..
  simp [decodeRequest, hop, hc0, hc1, hplen, hst]

/-- Settles O1, encoding space by encoding space: request words by their fields, frames by
`decode_wire_frameBytes`, states and flags by their codes. -/
theorem decodeEncodeRoundTrip : Obligations.DecodeEncodeRoundTrip := by
  intro i hwf
  cases i with
  | frameGeneric w t payload ck =>
    simp only [Instr.wf, Bool.and_eq_true, Bool.not_eq_true'] at hwf
    rw [← mkFrame_generic hwf.2, encode_mkFrame]
    exact decode_wire_frameBytes t ck ((payloadFits_iff _ _).1 hwf.1)
  | frameAtCommand w payload ck | frameAtResponse w payload ck | frameModemStatus w payload ck
  | frameTxRequest w payload ck | frameRxIndication w payload ck =>
    exact decode_wire_frameBytes _ ck ((payloadFits_iff _ _).1 hwf)
  | sendCommand c0 c1 plen =>
    obtain ⟨-, h, -⟩ := requestWordNamesOperationByLowBits c0 c1 plen 0 .sleep
    exact congrArg Except.ok h
  | doCommand c0 c1 plen =>
    obtain ⟨-, -, -, h, -⟩ := requestWordNamesOperationByLowBits c0 c1 plen 0 .sleep
    exact congrArg Except.ok h
  | setPower st =>
    obtain ⟨-, -, -, -, h, -⟩ := requestWordNamesOperationByLowBits 0 0 0 0 st
    exact congrArg Except.ok h
  | waitPower st =>
    obtain ⟨-, -, -, -, -, h, -⟩ := requestWordNamesOperationByLowBits 0 0 0 0 st
    exact congrArg Except.ok h
  | stepTxIdle | stepTxHeader | stepTxLenHi | stepTxLenLo | stepTxType | stepTxData | stepTxCksum =>
    exact decode_txStateCode _
  | stepRxIdle | stepRxLenHi | stepRxLenLo | stepRxType | stepRxData | stepRxCksum =>
    exact decode_rxStateCode _
  | flagSizeError | flagTxSuccess | flagRxSuccess | flagNoData | flagRxTooLong | flagBadChecksum
  | flagWrongFrame | flagCmdRejected | flagPollTimeout => exact decode_flagCode _
  | _ => rfl

/-- Settles O2: a decoded frame is the frame instruction of bytes whose payload has the announced length. -/
theorem decodedFrameAccountsForEveryByte : Obligations.DecodedFrameAccountsForEveryByte := by
  intro bs rest i h
  obtain ⟨w, t, payload, ck, rfl, hlen, hbs⟩ := decodeFrame_eq_ok h
  exact ⟨mkFrame_wf t ck hlen, _, encode_mkFrame w t payload ck, hbs⟩

/-- Settles O4: the words written out are evaluated; a flag set that is no flag's code and a byte stream
without the delimiter in front are rejected in general. -/
theorem specWordsDecode : Obligations.SpecWordsDecode := by
  refine ⟨by decide, by decide, by decide, by decide, by decide, by decide, by decide, by decide,
    by decide, by decide, by decide, by decide, by decide, by decide, by decide, by decide, by decide,
    fun c hc => ?notOneFlag, fun b bs hb => ?noDelimiter⟩
  case notOneFlag =>
    cases hf : flagOfCode c with
    | none => simp [decode, hf]
    | some f => exact absurd (flagCode_of_flagOfCode hf) (hc f)
  case noDelimiter =>
    have hframe : decodeFrame (b :: bs) = .error .noDelimiter := by
      unfold decodeFrame
      split
      · simp_all [Config.delim]
      · simp_all
      · simp_all [Config.delim]
    simp [decode, hframe]

end
section
/-! The two framer machines as functions of their own registers (spec/40_framer.md): what a state-step
sends or takes, the registers it leaves, the flag it raises. `txStep_eq` and `rxStep_eq` tie them to the
model; proofs about runs of state-steps speak of these functions. -/

namespace Sys2Proof.Machine

open Sys2Proof

/-! ## The transmit machine (R131 to R138) -/

/-- The byte the transmit state-step returns. -/
def txOut (f : FrameBuffer) (q : TxRegs) : Byte :=
  match q.txs with
  | .idle => Config.fill
  | .header => Config.delim
  | .lenHi => hiByte (wireLength f.length)
  | .lenLo => loByte (wireLength f.length)
  | .ftype => f.frameType
  | .data => f.byte q.txidx.toNat
  | .cksum => checksum q.txsum

/-- The TX registers behind the transmit state-step. -/
def txNext (f : FrameBuffer) (q : TxRegs) : TxRegs :=
  match q.txs with
  | .idle => q
  | .header => { q with txs := .lenHi }
  | .lenHi => { q with txs := .lenLo }
  | .lenLo => { q with txs := .ftype }
  | .ftype =>
    { txs := if 0 < f.length.toNat then .data else .cksum, txidx := 0, txsum := f.frameType }
  | .data =>
    { txs := if q.txidx + 1 = f.length then .cksum else .data
      txidx := q.txidx + 1
      txsum := q.txsum + f.byte q.txidx.toNat }
  | .cksum => { q with txs := .idle }

/-- The flag the transmit state-step raises. -/
def txRaised (q : TxRegs) : FlagSet :=
  match q.txs with
  | .idle | .header | .lenHi | .lenLo | .ftype | .data => 0#9
  | .cksum => flagCode .txSuccess

/-- TXIDX is inside the payload array while data is due, so the state-step does not fault (R76). -/
def TxInside (q : TxRegs) : Prop := q.txs = .data → q.txidx.toNat < Config.cap

theorem txStep_eq {s : State} (h : TxInside s.tx) :
    txStep s = .next { s with
      line := { s.line with xchOut := txOut s.txbuf s.tx }
      tx := txNext s.txbuf s.tx
      xf := { s.xf with xresult := s.xf.xresult ||| txRaised s.tx } } := by
  unfold txStep txOut txNext txRaised
  cases hst : s.tx.txs with
  | data =>
    simp only [BitVec.or_zero]
    exact if_pos (h hst)
  | cksum => simp [txCksum, raiseX, withFlag, setTxs, present]
  | _ =>
    simp only [BitVec.or_zero]
    rfl

/-! ## The receive machine (R149 to R159) -/

/-- RXW with the low length byte in place. -/
def rxWire (b : Byte) (q : RxRegs) : Half := joinBytes (hiByte q.rxw) b

/-- The RX registers behind the receive state-step on `b`. -/
def rxNext (b : Byte) (q : RxRegs) : RxRegs :=
  match q.rxs with
  | .idle => if b = Config.delim then { q with rxs := .lenHi, rxlong := false } else q
  | .lenHi => { q with rxw := joinBytes b (loByte q.rxw), rxs := .lenLo }
  | .lenLo =>
    { q with
      rxw := rxWire b q
      rxn := dataLength (rxWire b q)
      rxs := .ftype
      rxlong := if tooLong (dataLength (rxWire b q)) then true else q.rxlong }
  | .ftype =>
    { q with rxsum := b, rxidx := 0, rxs := if 0 < q.rxn.toNat then .data else .cksum }
  | .data =>
    { q with
      rxsum := q.rxsum + b
      rxidx := q.rxidx + 1
      rxs := if q.rxidx + 1 = q.rxn then .cksum else .data }
  | .cksum => { q with rxs := .idle }

/-- RXA behind the receive state-step on `b`. -/
def rxStaged (b : Byte) (q : RxRegs) (a : Staging) : Staging :=
  match q.rxs with
  | .ftype => { a with frameType := b }
  | .data => stage q.rxidx.toNat b a
  | .idle | .lenHi | .lenLo | .cksum => a

/-- The receive state-step on `b` leaves Idle (R150). -/
def rxOpens (b : Byte) (q : RxRegs) : Bool := decide (q.rxs = .idle) && decide (b = Config.delim)

/-- The receive state-step on `b` commits (R157, R158). -/
def rxCommits (b : Byte) (q : RxRegs) : Bool :=
  decide (q.rxs = .cksum) && decide (b = checksum q.rxsum) && !q.rxlong

/-- The flag the receive state-step on `b` raises (R154, R157). -/
def rxRaised (b : Byte) (q : RxRegs) : FlagSet :=
  match q.rxs with
  | .idle | .lenHi | .ftype | .data => 0#9
  | .lenLo => if tooLong (dataLength (rxWire b q)) then flagCode .rxTooLong else 0#9
  | .cksum =>
    if b = checksum q.rxsum then if q.rxlong then 0#9 else flagCode .rxSuccess
    else flagCode .badChecksum

theorem rxStep_eq (b : Byte) (s : State) :
    rxStep b s = { s with
      rx := rxNext b s.rx
      rxa := rxStaged b s.rx s.rxa
      rxbuf := if rxCommits b s.rx then (commit s).rxbuf else s.rxbuf
      draws := if rxCommits b s.rx then s.draws + 1 else s.draws
      xf := { s.xf with
        rxseen := s.xf.rxseen || rxOpens b s.rx
        retry := if rxOpens b s.rx then 0 else s.xf.retry
        xresult := s.xf.xresult ||| rxRaised b s.rx } } := by
  unfold rxStep rxNext rxStaged rxOpens rxCommits rxRaised
  split <;> rename_i hst <;> simp only [hst, reduceCtorEq, decide_false, decide_true, Bool.false_and,
    Bool.true_and, Bool.or_false, BitVec.or_zero, if_false]
  case h_1 => by_cases hb : b = Config.delim <;> simp [rxIdle, hb]
  case h_3 =>
    by_cases hl : tooLong (dataLength (rxWire b s.rx)) = true
    · simp only [hl, if_true]
      exact if_pos hl
    · simp only [hl, Bool.false_eq_true, if_false, BitVec.or_zero]
      exact if_neg hl
  case h_6 =>
    by_cases hb : b = checksum s.rx.rxsum
    · by_cases hl : s.rx.rxlong = true
      · simp [rxCksum, hb, hl, setRxs]
      · simp [rxCksum, hb, hl, setRxs, raiseX, withFlag, commit]
    · simp [rxCksum, hb, setRxs, raiseX, withFlag]
  all_goals rfl

/-! ## Staged bytes -/

theorem stage_byte_same {i : Nat} (b : Byte) (a : Staging) (h : i < Config.cap) :
    (stage i b a).byte i = b := by
  simp [stage, h, Staging.byte]

theorem stage_byte_of_ne {i j : Nat} (b : Byte) (a : Staging) (h : j ≠ i ∨ Config.cap ≤ i) :
    (stage i b a).byte j = a.byte j := by
  unfold stage
  split
  · exact byteAt_memPut_of_ne _ _ _ (by omega)
  · rfl

theorem stage_frameType (i : Nat) (b : Byte) (a : Staging) :
    (stage i b a).frameType = a.frameType := by
  unfold stage
  split <;> rfl

/-- A committed byte is the staged one (R158). -/
theorem commit_byte_below {s : State} {i : Nat} (h : i < s.rx.rxn.toNat) :
    (commit s).rxbuf.byte i = s.rxa.byte i := by
  simp [FrameBuffer.byte, Staging.byte, byteAt, memGet_copyPrefix, h]

/-- From RXN on RXBUF's bytes are free values of their own (R158, D29). -/
theorem commit_byte_above {s : State} {i : Nat} (h : s.rx.rxn.toNat ≤ i) :
    (commit s).rxbuf.byte i = Config.freeByte s.draws i := by
  simp [FrameBuffer.byte, byteAt, memGet_copyPrefix, Nat.not_lt.2 h]

end Sys2Proof.Machine

open Sys2Proof Sys2Proof.Machine

/-! ## State-steps as instructions -/

/-- Settles O17: by whether TXIDX is inside the payload array (R136, R76). -/
theorem txDataSendsPayloadByte : Obligations.TxDataSendsPayloadByte := by
  intro s hst
  constructor
  · intro hin
    have hbody : txData s = .next _ := if_pos hin
    show fireTx .data txData s = _
    rw [fireTx_of_next hst hbody rfl]
    rfl
  · intro hout
    have hfault : txData s = .fault .payloadIndexOutOfRange := if_neg (Nat.not_lt.2 hout)
    calc exec .stepTxData s
        = fireTx .data txData s := rfl
      _ = .fault .payloadIndexOutOfRange := by rw [fireTx, if_pos hst, hfault, andThen_fault]

/-- Settles O18: the body presents the checksum, goes idle and raises TX_SUCCESS (R137). -/
theorem txChecksumEndsFrame : Obligations.TxChecksumEndsFrame := by
  intro s hst
  have hbody : txCksum s =
      .next (raiseX .txSuccess (setTxs .idle (present (checksum s.tx.txsum) s))) := by
    rw [txCksum, raiseFlag_txSuccess]
  show fireTx .cksum txCksum s = _
  rw [fireTx_of_next hst hbody (by simp)]
  simp [raiseX, withFlag, flagCode, setTxs, present, checksum, Config.ckBase]

/-- Settles O19: a state-step compares its state first; without a byte on XCH_IN the free value is the
byte sampled (log 8). -/
theorem stateStepsFireOnlyInTheirState : Obligations.StateStepsFireOnlyInTheirState := by
  intro s a b
  refine ⟨fun hne => ?tx, fun hne => ?rx, fun hnone => ?free⟩
  case tx => cases a <;> exact if_neg hne
  case rx => cases b <;> exact if_neg hne
  case free =>
    generalize hv : ({ s with
      line := { s.line with xchIn := some (Config.freeByte s.draws 0) }
      draws := s.draws + 1 } : State) = v
    have hrx : v.rx = s.rx := by rw [← hv]
    have hbyte : inByte v = inByte s := by rw [← hv]; simp [inByte, hnone]
    have htaken : takeIn v = takeIn s := by
      rw [← hv]
      simp only [takeIn, hnone]
      rw [← hnone]
    calc exec (rxInstr s.rx.rxs) s
        = .next (xferRx s) := exec_rxInstr s
      _ = .next (xferRx v) := by rw [xferRx, xferRx, hbyte, htaken, hrx]
      _ = exec (rxInstr v.rx.rxs) v := (exec_rxInstr v).symm
      _ = exec (rxInstr s.rx.rxs) v := by rw [hrx]

/-- Settles O22: RXN is RXW − 1 as a number, and the too-long test compares it with 64 (R152 to R154). -/
theorem rxLowLengthByteFixesCount : Obligations.RxLowLengthByteFixesCount := by
  intro s u b hst hin w
  have hexec : exec .stepRxLenLo s =
      .next { rxLenLo b u with ops := (leaveRx false s).ops } :=
    fireRx_of_samples hst hin (rxLenLo_ops _ _)
  have hrx : u.rx = s.rx := by obtain ⟨-, rfl⟩ := (samples_iff s).1 hin; exact takeIn_rx s
  have hn : dataLength w = BitVec.ofNat 16 (w.toNat - 1) := dataLength_eq w
  have hlong : tooLong (dataLength w) = true ↔ 64 ≤ w.toNat - 1 := by
    rw [tooLong_iff, dataLength_toNat]
  have hw : joinBytes (hiByte s.rx.rxw) b = w := rfl
  constructor
  · intro hfits
    rw [hexec, rxLenLo, rxLongTest, if_neg (by rw [hrx, hw, hlong]; omega), hrx, hw, hn]
  · intro hover
    rw [hexec, rxLenLo, rxLongTest, if_pos (by rw [hrx, hw, hlong]; exact hover), hrx, hw, hn]
    obtain ⟨-, rfl⟩ := (samples_iff s).1 hin
    simp [raiseX, withFlag, flagCode]

/-- Settles O23: RXA changes at RXIDX only, and only below 64; the rest is one assignment (R156). -/
theorem rxDataStagesAndSums : Obligations.RxDataStagesAndSums := by
  intro s u b hst hin
  have hexec : exec .stepRxData s =
      .next { rxData b u with ops := (leaveRx false s).ops } :=
    fireRx_of_samples hst hin (rxData_ops _ _)
  obtain ⟨-, rfl⟩ := (samples_iff s).1 hin
  refine ⟨_, hexec, by simp [rxData], ?_⟩
  simp only [rxData, takeIn_rx, takeIn_rxa]
  exact ⟨stage_frameType .., fun h => stage_byte_same b _ h, fun i h => stage_byte_of_ne b _ h⟩

/-- Settles O24: a matching checksum commits unless the frame is too long, any other raises BAD_CHECKSUM
(R157, R158). -/
theorem rxChecksumCommitsOrRejects : Obligations.RxChecksumCommitsOrRejects := by
  intro s u b hst hin
  have hexec : exec .stepRxCksum s =
      .next { rxCksum b u with ops := (leaveRx false s).ops } :=
    fireRx_of_samples hst hin (rxCksum_ops _ _)
  obtain ⟨-, rfl⟩ := (samples_iff s).1 hin
  have hcheck : checksum (takeIn s).rx.rxsum = 0xFF#8 - s.rx.rxsum := by rw [takeIn_rx]; rfl
  refine ⟨fun hb hl => ⟨_, hexec, ?_⟩, fun hb hl => ?_, fun hb => ?_⟩
  · rw [rxCksum, hcheck, if_pos hb, if_neg (by simp [hl])]
    refine ⟨by simp [setRxs, raiseX, commit, withFlag, flagCode], by simp, by simp,
      fun i hi => ?_, fun i hi => ?_⟩
    · exact (commit_byte_below (by simpa using hi)).trans (by simp)
    · exact commit_byte_above (by simpa using hi)
  · rw [hexec, rxCksum, hcheck, if_pos hb, if_pos (by simp [hl])]
    simp [setRxs]
  · rw [hexec, rxCksum, hcheck, if_neg hb]
    simp [setRxs, raiseX, withFlag, flagCode]

/-- Settles O25: a flag row raises its flag, whose accumulator and bit are evaluated flag by flag; the
advance behind a `raise` line reads and writes OPS only. -/
theorem raisingAFlagSetsOneBit : Obligations.RaisingAFlagSetsOneBit := by
  intro s inX inR
  have hops (f : Flag) {t : State} (h : t.ops = s.ops) :
      leaveRaise f t = { t with ops := (leaveRaise f s).ops } := by
    unfold leaveRaise
    rw [h]
    split
    · split_ifs
      · rfl
      · rw [← h]
    · rw [← h]
  have hx (f : Flag) (hf : raisedByXfer f = true) : raiseNow f s = inX f (flagCode f) := by
    rw [raiseNow, raiseFlag_of_xfer s f hf, hops f (raiseX_ops s f)]
    rfl
  have hr (f : Flag) (hf : raisedByXfer f = false) : raiseNow f s = inR f (flagCode f) := by
    have hraise : raiseFlag f s =
        { s with res := { s.res with result := withFlag f s.res.result } } := by
      simp [raiseFlag, hf]
    rw [raiseNow, hraise]
    exact congrArg Host.Outcome.next (hops f rfl)
  exact ⟨hx _ rfl, hx _ rfl, hx _ rfl, hx _ rfl, hx _ rfl, hx _ rfl, hr _ rfl, hr _ rfl, hr _ rfl⟩

end
section
/-! Byte sequences (spec/40_framer.md section 4): what the receive machine makes of a whole frame, what the
transmit machine sends from its header state, and the round-trip and corruption laws. -/

namespace Sys2Proof.Machine

open Sys2Proof

/-! ## A frame fed to the receive machine -/

/-- Every one of these bytes finds the receive machine outside Idle. -/
def Receiving : List Byte → State → Prop
  | [], _ => True
  | b :: bs, v => v.rx.rxs ≠ .idle ∧ Receiving bs (rxStep b v)

theorem rxFeed_cons (b : Byte) (bs : List Byte) (v : State) :
    rxFeed (b :: bs) v = rxFeed bs (rxStep b v) := rfl

theorem rxFeed_append (as bs : List Byte) (v : State) :
    rxFeed (as ++ bs) v = rxFeed bs (rxFeed as v) := List.foldl_append

theorem receiving_append {as bs : List Byte} {v : State} :
    Receiving (as ++ bs) v ↔ Receiving as v ∧ Receiving bs (rxFeed as v) := by
  induction as generalizing v with
  | nil => simp [Receiving, rxFeed]
  | cons a as ih =>
    simp only [List.cons_append, Receiving, rxFeed_cons, ih, and_assoc]

/-- RXA with bytes staged from an index on. -/
def stageAll : Nat → List Byte → Staging → Staging
  | _, [], a => a
  | i, b :: bs, a => stageAll (i + 1) bs (stage i b a)

theorem stageAll_frameType (i : Nat) (bs : List Byte) (a : Staging) :
    (stageAll i bs a).frameType = a.frameType := by
  induction bs generalizing i a with
  | nil => rfl
  | cons b bs ih => rw [stageAll, ih, stage_frameType]

/-- Bytes that fit the payload array are staged one behind the other. -/
theorem stageAll_eq_memPutAll {i : Nat} {bs : List Byte} (a : Staging)
    (h : i + bs.length ≤ Config.cap) :
    stageAll i bs a = { a with payload := memPutAll a.payload i bs } := by
  induction bs generalizing i a with
  | nil => rfl
  | cons b bs ih =>
    simp only [List.length_cons] at h
    rw [stageAll, ih _ (by omega), stage, if_pos (by omega)]
    rfl

theorem stageAll_byte {i j : Nat} {bs : List Byte} (a : Staging)
    (h : i + bs.length ≤ Config.cap) (hj : j < bs.length) :
    (stageAll i bs a).byte (i + j) = bs[j] := by
  rw [stageAll_eq_memPutAll a h]
  exact byteAt_memPutAll_inside _ _ _ _ _ hj

/-- The receive machine behind the header bytes of a frame: the too-long test is made, the sum started. -/
def headed (w : Half) (ty : Byte) (v : State) : State :=
  { v with
    rx := { rxs := if 0 < (dataLength w).toNat then .data else .cksum
            rxw := w
            rxn := dataLength w
            rxidx := 0
            rxsum := ty
            rxlong := tooLong (dataLength w) }
    rxa := { v.rxa with frameType := ty }
    xf := { v.xf with
      rxseen := true
      retry := 0
      xresult := v.xf.xresult ||| if tooLong (dataLength w) then 0x010#9 else 0#9 } }

/-- The receive machine with a frame's data bytes taken and its checksum due. -/
def bodied (w : Half) (ty : Byte) (payload : List Byte) (v : State) : State :=
  { headed w ty v with
    rx := { (headed w ty v).rx with
      rxs := .cksum, rxidx := dataLength w, rxsum := byteSum ty payload }
    rxa := stageAll 0 payload (headed w ty v).rxa }

theorem rxFeed_header {v : State} (w : Half) (ty : Byte) (hv : v.rx.rxs = .idle) :
    rxFeed [Config.delim, hiByte w, loByte w, ty] v = headed w ty v ∧
      Receiving [hiByte w, loByte w, ty] (rxStep Config.delim v) := by
  have hidle : rxStep Config.delim v = rxIdle Config.delim v := by rw [rxStep, hv]
  rw [rxFeed_cons, hidle, rxIdle_of_delim rfl]
  by_cases hl : tooLong (dataLength w) = true
  · simp [rxFeed, Receiving, rxStep, rxLenHi, rxLenLo, rxLongTest, rxType, joinBytes_hi_lo, hl,
      raiseX, withFlag, flagCode, headed]
  · simp [rxFeed, Receiving, rxStep, rxLenHi, rxLenLo, rxLongTest, rxType, joinBytes_hi_lo, hl,
      headed]

/-- The data bytes of a frame, by induction: one staged and summed after the other until RXIDX is RXN. -/
theorem rxFeed_data {v : State} {bs : List Byte} (hne : bs ≠ []) (hv : v.rx.rxs = .data)
    (hn : v.rx.rxidx.toNat + bs.length = v.rx.rxn.toNat) :
    rxFeed bs v = { v with
      rx := { v.rx with
        rxs := .cksum, rxidx := v.rx.rxn, rxsum := byteSum v.rx.rxsum bs }
      rxa := stageAll v.rx.rxidx.toNat bs v.rxa } ∧ Receiving bs v := by
  induction bs generalizing v with
  | nil => exact absurd rfl hne
  | cons b bs ih =>
    have hstep : rxStep b v = rxData b v := by rw [rxStep, hv]
    simp only [List.length_cons] at hn
    have hlt := v.rx.rxn.isLt
    have hnext : (rxData b v).rx.rxidx.toNat = v.rx.rxidx.toNat + 1 := by
      show (v.rx.rxidx + 1#16).toNat = _
      rw [BitVec.toNat_add]
      exact Nat.mod_eq_of_lt (by simp only [BitVec.toNat_ofNat]; omega)
    rw [rxFeed_cons, Receiving, hstep, hv]
    cases bs with
    | nil =>
      have hlast : v.rx.rxidx + 1#16 = v.rx.rxn :=
        BitVec.eq_of_toNat_eq (hnext.trans hn)
      simp [rxFeed, Receiving, rxData, hlast, byteSum, stageAll]
    | cons c cs =>
      have hmore : v.rx.rxidx + 1#16 ≠ v.rx.rxn := fun h => by
        rw [← h, show (v.rx.rxidx + 1#16).toNat = _ from hnext] at hn
        simp at hn
      obtain ⟨hfeed, hrec⟩ := ih (v := rxData b v) (by simp) (by simp [rxData, hmore])
        (by rw [hnext, ← Nat.add_right_comm]; exact hn)
      refine ⟨?_, by simp, hrec⟩
      rw [hfeed, hnext]
      rfl

/-- A whole frame: the header, the data bytes, and the Checksum step on the last byte. Behind the
delimiter every byte finds the machine outside Idle. -/
theorem rxFeed_frame {v : State} {w : Half} {payload : List Byte} (ty ck : Byte)
    (hv : v.rx.rxs = .idle) (hlen : payload.length = w.toNat - 1) :
    rxFeed (frameBytes w ty payload ck) v = rxCksum ck (bodied w ty payload v) ∧
      Receiving (frameBytes w ty payload ck).tail (rxStep Config.delim v) := by
  obtain ⟨hhead, hrecHead⟩ := rxFeed_header w ty hv
  have hbody : rxFeed payload (headed w ty v) = bodied w ty payload v ∧
      Receiving payload (headed w ty v) := by
    have hn : (dataLength w).toNat = payload.length := by rw [dataLength_toNat, hlen]
    cases payload with
    | nil =>
      have hzero : dataLength w = 0#16 := BitVec.eq_of_toNat_eq hn
      simp [rxFeed, Receiving, bodied, headed, byteSum, stageAll, hzero]
    | cons b bs =>
      refine rxFeed_data (by simp) ?_ (by simp [headed, hn])
      simp [headed, hn]
  have hshape : frameBytes w ty payload ck =
      [Config.delim, hiByte w, loByte w, ty] ++ (payload ++ [ck]) := rfl
  constructor
  · rw [hshape, rxFeed_append, hhead, rxFeed_append, hbody.1]
    rfl
  · have htail : (frameBytes w ty payload ck).tail =
        [hiByte w, loByte w, ty] ++ (payload ++ [ck]) := rfl
    have hstart : rxFeed [hiByte w, loByte w, ty] (rxStep Config.delim v) = headed w ty v := hhead
    rw [htail, receiving_append, receiving_append, hstart, hbody.1]
    exact ⟨hrecHead, hbody.2, by simp [Receiving, bodied]⟩

theorem rxCksum_rxs (b : Byte) (s : State) : (rxCksum b s).rx.rxs = .idle := rfl

section

variable {v : State} {w : Half} {payload : List Byte} {ty ck : Byte} (hv : v.rx.rxs = .idle)
  (hlen : payload.length = w.toNat - 1)

include hv hlen

/-- Behind any frame the receive machine is idle again, and RXSEEN and RETRY are as the delimiter left
them. -/
theorem rxFeed_frame_ends :
    (rxFeed (frameBytes w ty payload ck) v).rx.rxs = .idle ∧
      (rxFeed (frameBytes w ty payload ck) v).xf.retry = 0 ∧
      (rxFeed (frameBytes w ty payload ck) v).xf.rxseen = true := by
  rw [(rxFeed_frame ty ck hv hlen).1]
  refine ⟨rfl, ?_⟩
  unfold rxCksum
  split_ifs <;> exact ⟨rfl, rfl⟩

/-- A good frame is committed with RX_SUCCESS (R157, R158). -/
theorem rxFeed_good_frame (hfits : payload.length < 64) (hck : ck = 0xFF#8 - byteSum ty payload) :
    (rxFeed (frameBytes w ty payload ck) v).xf.xresult = v.xf.xresult ||| 0x004#9 ∧
      (rxFeed (frameBytes w ty payload ck) v).rxbuf.length.toNat = payload.length ∧
      (rxFeed (frameBytes w ty payload ck) v).rxbuf.frameType = ty ∧
      ∀ (j : Nat) (h : j < payload.length),
        (rxFeed (frameBytes w ty payload ck) v).rxbuf.byte j = payload[j] := by
  have hn : (dataLength w).toNat = payload.length := by rw [dataLength_toNat, hlen]
  have hshort : tooLong (dataLength w) = false := (tooLong_eq_false_iff _).2 (by rw [hn]; exact hfits)
  have hmatch : ck = checksum (bodied w ty payload v).rx.rxsum := hck
  have hfeed : rxFeed (frameBytes w ty payload ck) v =
      setRxs .idle (raiseX .rxSuccess (commit (bodied w ty payload v))) := by
    rw [(rxFeed_frame ty ck hv hlen).1, rxCksum, if_pos hmatch, if_neg (by simp [bodied, headed, hshort]),
      raiseFlag_rxSuccess]
  rw [hfeed]
  refine ⟨?_, ?_, ?_, fun j hj => ?_⟩
  · simp [bodied, headed, hshort, withFlag, flagCode]
  · simp [bodied, headed, hn]
  · simp [bodied, headed, stageAll_frameType]
  · have hstaged := stageAll_byte (i := 0) (bodied w ty [] v).rxa
      (by rw [Nat.zero_add]; exact hfits.le) hj
    rw [Nat.zero_add] at hstaged
    rw [← hstaged]
    exact commit_byte_below (by simp only [bodied, headed, hn]; exact hj)

/-- A frame that is too long or whose checksum is wrong leaves RXBUF alone; its flags say which (R154,
R157; D5, D7). -/
theorem rxFeed_bad_frame (hbad : 64 ≤ payload.length ∨ ck ≠ 0xFF#8 - byteSum ty payload) :
    (rxFeed (frameBytes w ty payload ck) v).rxbuf = v.rxbuf ∧
      (rxFeed (frameBytes w ty payload ck) v).draws = v.draws ∧
      (rxFeed (frameBytes w ty payload ck) v).xf.xresult =
        v.xf.xresult ||| (if 64 ≤ payload.length then 0x010#9 else 0#9) |||
          (if ck = 0xFF#8 - byteSum ty payload then 0#9 else 0x020#9) := by
  have hn : (dataLength w).toNat = payload.length := by rw [dataLength_toNat, hlen]
  have hlong : tooLong (dataLength w) = true ↔ 64 ≤ payload.length := by rw [tooLong_iff, hn]
  rw [(rxFeed_frame ty ck hv hlen).1]
  by_cases hck : ck = 0xFF#8 - byteSum ty payload
  · have hover : 64 ≤ payload.length := hbad.resolve_right (not_not_intro hck)
    have hmatch : ck = checksum (bodied w ty payload v).rx.rxsum := hck
    have hfeed : rxCksum ck (bodied w ty payload v) = setRxs .idle (bodied w ty payload v) := by
      have hset : (bodied w ty payload v).rx.rxlong = true := hlong.2 hover
      rw [rxCksum, if_pos hmatch, if_pos hset]
    rw [hfeed]
    simp [bodied, headed, hlong, hover, hck]
  · have hmiss : ck ≠ checksum (bodied w ty payload v).rx.rxsum := hck
    have hfeed : rxCksum ck (bodied w ty payload v) =
        setRxs .idle (raiseX .badChecksum (bodied w ty payload v)) := by
      rw [rxCksum, if_neg hmiss, raiseFlag_badChecksum]
    rw [hfeed]
    simp [bodied, headed, hlong, hck, withFlag, flagCode]

end

/-! ## The running sum -/

theorem byteSum_cons (t b : Byte) (bs : List Byte) : byteSum t (b :: bs) = byteSum (t + b) bs := rfl

theorem byteSum_left_inj {t t' : Byte} (bs : List Byte) : byteSum t bs = byteSum t' bs ↔ t = t' := by
  induction bs generalizing t t' with
  | nil => rfl
  | cons b bs ih => rw [byteSum_cons, byteSum_cons, ih, BitVec.add_left_inj]

/-- Changing one data byte changes the sum. -/
theorem byteSum_set_ne {bs : List Byte} {j : Nat} (t c : Byte) (hj : j < bs.length)
    (hne : bs[j] ≠ c) : byteSum t (bs.set j c) ≠ byteSum t bs := by
  induction bs generalizing t j with
  | nil => simp at hj
  | cons b bs ih =>
    cases j with
    | zero =>
      rw [List.set_cons_zero, byteSum_cons, byteSum_cons, Ne, byteSum_left_inj, BitVec.add_right_inj]
      exact fun h => hne h.symm
    | succ j => exact ih _ (by simpa using hj) hne

/-- A frame with one byte between the type byte and the last data byte changed: header and checksum byte
stay, and the sum is another. -/
theorem frameBytes_set {w : Half} {ty ck : Byte} {payload : List Byte} {k : Nat} {c : Byte}
    (hk : 3 ≤ k) (hk' : k ≤ 3 + payload.length) (hne : (frameBytes w ty payload ck)[k]? ≠ some c) :
    ∃ ty' payload', (frameBytes w ty payload ck).set k c = frameBytes w ty' payload' ck ∧
      payload'.length = payload.length ∧ byteSum ty' payload' ≠ byteSum ty payload := by
  obtain ⟨i, rfl⟩ := Nat.exists_eq_add_of_le' hk
  cases i with
  | zero =>
    refine ⟨c, payload, rfl, rfl, fun h => hne ?_⟩
    rw [(byteSum_left_inj payload).1 h]
    rfl
  | succ j =>
    have hj : j < payload.length := by omega
    refine ⟨ty, payload.set j c, ?_, List.length_set, byteSum_set_ne ty c hj fun h => hne ?_⟩
    · simp [frameBytes, hj]
    · simp [frameBytes, List.getElem?_append_left hj, hj, h]

/-! ## What the transmit machine sends -/

/-- The transmitter is ready to go on: TXBUF passed the size check (R172) and TXIDX is inside the payload
(R76). -/
def TxReady (f : FrameBuffer) (q : TxRegs) : Prop :=
  (q.txs ≠ .idle → badSize f.length = false) ∧ (q.txs = .data → q.txidx.toNat < f.length.toNat)

theorem TxReady.inside {f : FrameBuffer} {q : TxRegs} (h : TxReady f q) : TxInside q := by
  intro hd
  obtain ⟨-, hlt⟩ := (badSize_eq_false_iff _).1 (h.1 (by simp [hd]))
  exact (h.2 hd).trans hlt

/-- TXIDX counts up without wrapping while data is due. -/
theorem txidx_succ_toNat {f : FrameBuffer} {q : TxRegs} (h : q.txidx.toNat < f.length.toNat) :
    (q.txidx + 1#16).toNat = q.txidx.toNat + 1 := by
  have hlt := f.length.isLt
  rw [BitVec.toNat_add]
  exact Nat.mod_eq_of_lt (by rw [BitVec.toNat_ofNat]; omega)

theorem TxReady.next {f : FrameBuffer} {q : TxRegs} (h : TxReady f q) : TxReady f (txNext f q) := by
  obtain ⟨hsize, hidx⟩ := h
  unfold txNext
  split <;> rename_i hq <;> simp only [hq, ne_eq, reduceCtorEq, not_false_eq_true, not_true_eq_false,
    forall_const, IsEmpty.forall_iff] at hsize hidx
  case h_1 => exact ⟨fun hne => absurd hq hne, fun hd => by simp [hq] at hd⟩
  case h_5 =>
    refine ⟨fun _ => hsize, fun _ => ?_⟩
    exact ((badSize_eq_false_iff _).1 hsize).1
  case h_6 =>
    refine ⟨fun _ => hsize, fun hd => ?_⟩
    have hmore : q.txidx + 1#16 ≠ f.length := fun he => by simp [he] at hd
    have hne : (q.txidx + 1#16).toNat ≠ f.length.toNat := fun he => hmore (BitVec.eq_of_toNat_eq he)
    have hsucc := txidx_succ_toNat hidx
    rw [hsucc] at hne
    show (q.txidx + 1#16).toNat < f.length.toNat
    rw [hsucc]
    omega
  case h_7 => exact ⟨fun hne => absurd rfl hne, fun hd => by simp at hd⟩
  all_goals exact ⟨fun _ => hsize, fun hd => by simp at hd⟩

/-- From registers `q` the transmitter returns these bytes, none of them in TX_IDLE, raises the flags `x`
and has registers `q'`. -/
inductive Sends (f : FrameBuffer) : TxRegs → List Byte → FlagSet → TxRegs → Prop
  | done (q : TxRegs) : Sends f q [] 0#9 q
  | byte {q q' : TxRegs} {out : List Byte} {x : FlagSet} (hq : q.txs ≠ .idle)
      (hrest : Sends f (txNext f q) out x q') :
      Sends f q (txOut f q :: out) (txRaised q ||| x) q'

/-- The last byte: the checksum, with TX_SUCCESS. -/
theorem sends_cksum {f : FrameBuffer} {q : TxRegs} (hq : q.txs = .cksum) :
    ∃ q', Sends f q [checksum q.txsum] 0x002#9 q' ∧ q'.txs = .idle := by
  have h := Sends.byte (f := f) (q := q) (by simp [hq]) (.done _)
  simp only [txOut, txRaised, txNext, hq] at h
  exact ⟨_, h, rfl⟩

/-- The data bytes and the checksum, by induction on the bytes still due. -/
theorem sends_data {f : FrameBuffer} {q : TxRegs} (n : Nat) (hq : q.txs = .data)
    (hn : q.txidx.toNat + (n + 1) = f.length.toNat) :
    ∃ q', Sends f q
      ((List.range' q.txidx.toNat (n + 1)).map f.byte ++
        [checksum (byteSum q.txsum ((List.range' q.txidx.toNat (n + 1)).map f.byte))]) 0x002#9 q' ∧
      q'.txs = .idle := by
  induction n generalizing q with
  | zero =>
    have hsucc := txidx_succ_toNat (f := f) (q := q) (by omega)
    have hlast : q.txidx + 1#16 = f.length := BitVec.eq_of_toNat_eq (by rw [hsucc]; exact hn)
    obtain ⟨q', hsend, hidle⟩ := sends_cksum (f := f) (q := txNext f q) (by simp [txNext, hq, hlast])
    have h := Sends.byte (by simp [hq]) hsend
    simp only [txOut, txRaised, txNext, hq, BitVec.zero_or] at h
    exact ⟨q', h, hidle⟩
  | succ n ih =>
    have hsucc := txidx_succ_toNat (f := f) (q := q) (by omega)
    have hmore : q.txidx + 1#16 ≠ f.length := fun he => by
      rw [← he, hsucc] at hn
      omega
    have hidx : (txNext f q).txidx.toNat = q.txidx.toNat + 1 := by
      rw [txNext, hq]
      exact hsucc
    obtain ⟨q', hsend, hidle⟩ := ih (q := txNext f q) (by simp [txNext, hq, hmore])
      (by rw [hidx]; omega)
    have h := Sends.byte (by simp [hq]) hsend
    rw [hidx] at h
    simp only [txOut, txRaised, txNext, hq, BitVec.zero_or] at h
    rw [List.range'_succ]
    exact ⟨q', h, hidle⟩

/-- From TX_HEADER the transmitter sends the frame of TXBUF and raises TX_SUCCESS (R132 to R138). -/
theorem sends_frame {f : FrameBuffer} {q : TxRegs} (hq : q.txs = .header)
    (hpos : 0 < f.length.toNat) :
    ∃ q', Sends f q (frameOf f) 0x002#9 q' ∧ q'.txs = .idle := by
  obtain ⟨n, hn⟩ := Nat.exists_eq_add_of_lt hpos
  obtain ⟨q', hdata, hidle⟩ := sends_data (f := f)
    (q := { txs := .data, txidx := 0, txsum := f.frameType }) n rfl (by simpa using hn.symm)
  have htype : Sends f { q with txs := .ftype } _ _ q' :=
    .byte (by simp) (by simpa only [txNext, hpos, if_true] using hdata)
  have hlo : Sends f { q with txs := .lenLo } _ _ q' := .byte (by simp) htype
  have hhi : Sends f { q with txs := .lenHi } _ _ q' := .byte (by simp) hlo
  have h : Sends f q _ _ q' := .byte (by simp [hq]) (by simpa only [txNext, hq] using hhi)
  refine ⟨q', ?_, hidle⟩
  simpa [txOut, txRaised, hq, frameOf, frameBytes, List.range_eq_range', hn] using h

/-- What the transmitter sends is what `txRun` returns. -/
theorem Sends.txRun_eq {f : FrameBuffer} {q q' : TxRegs} {out : List Byte} {x : FlagSet}
    (h : Sends f q out x q') {s : State} (hf : s.txbuf = f) (hq : s.tx = q) (hr : TxReady f q)
    (acc : List Byte) :
    ∃ u, txRun out.length s acc = some (acc ++ out, u) ∧ u.tx = q' ∧
      u.xf.xresult = s.xf.xresult ||| x := by
  induction h generalizing s acc with
  | done q => exact ⟨s, by simp [txRun], hq, by simp⟩
  | byte hne hrest ih =>
    subst hf hq
    obtain ⟨u, hrun, hu, hx⟩ := ih (s := { s with
      line := { s.line with xchOut := txOut s.txbuf s.tx }
      tx := txNext s.txbuf s.tx
      xf := { s.xf with xresult := s.xf.xresult ||| txRaised s.tx } }) rfl rfl hr.next
      (acc ++ [txOut s.txbuf s.tx])
    refine ⟨u, ?_, hu, ?_⟩
    · simp only [List.length_cons, txRun, txStep_eq hr.inside, hrun, List.append_assoc,
        List.singleton_append]
    · rw [hx, BitVec.or_assoc]

theorem frameOf_eq (f : FrameBuffer) :
    frameOf f = frameBytes (wireLength f.length) f.frameType ((List.range f.length.toNat).map f.byte)
      (0xFF#8 - byteSum f.frameType ((List.range f.length.toNat).map f.byte)) := rfl

theorem frameOf_length (f : FrameBuffer) : (frameOf f).length = f.length.toNat + 5 := by
  simp [frameOf, frameBytes]

/-- The frame of a buffer has as many data bytes as its wire length announces. -/
theorem frameOf_payload_length {f : FrameBuffer} (h : f.length.toNat < 64) :
    ((List.range f.length.toNat).map f.byte).length = (wireLength f.length).toNat - 1 := by
  simp [wireLength_toNat h]

end Sys2Proof.Machine

open Sys2Proof Sys2Proof.Machine

/-- Settles O40: the transmitter sends the frame of TXBUF (`sends_frame`), and a good frame is committed
(`rxFeed_good_frame`). -/
theorem roundTripLaw : Obligations.RoundTripLaw := by
  intro s v hs hpos hlt hv
  constructor
  · obtain ⟨q', hsend, hidle⟩ := sends_frame hs hpos
    have hready : TxReady s.txbuf s.tx :=
      ⟨fun _ => (badSize_eq_false_iff _).2 ⟨hpos, hlt⟩, fun hd => by simp [hs] at hd⟩
    obtain ⟨u, hrun, hu, hx⟩ := hsend.txRun_eq rfl rfl hready []
    rw [frameOf_length] at hrun
    exact ⟨u, hrun, by rw [hu, hidle], hx⟩
  · have hlen := frameOf_payload_length hlt
    obtain ⟨hx, hl, hty, hbytes⟩ := rxFeed_good_frame (ty := s.txbuf.frameType) hv hlen
      (by simpa using hlt) rfl
    rw [frameOf_eq]
    refine ⟨(rxFeed_frame_ends hv hlen).1, hx, BitVec.eq_of_toNat_eq (by simpa using hl), hty,
      fun i hi => ?_⟩
    rw [hbytes i (by simpa using hi), List.getElem_map, List.getElem_range]

/-- Settles O41: the changed byte changes the sum (`frameBytes_set`), so the checksum byte is wrong
(`rxFeed_bad_frame`). -/
theorem oneChangedByteIsBadChecksum : Obligations.OneChangedByteIsBadChecksum := by
  intro b v k c hpos hlt hv hk hk' hne
  obtain ⟨ty, payload, hset, hlen, hsum⟩ := frameBytes_set hk (by simpa using hk')
    (frameOf_eq b ▸ hne)
  have hwire : payload.length = (wireLength b.length).toNat - 1 :=
    hlen.trans (frameOf_payload_length hlt)
  have hck : 0xFF#8 - byteSum b.frameType ((List.range b.length.toNat).map b.byte) ≠
      0xFF#8 - byteSum ty payload := fun he => hsum ((BitVec.sub_right_inj _).1 he).symm
  have hfits : ¬ 64 ≤ payload.length := by
    rw [hlen]
    simpa using hlt
  obtain ⟨hbuf, -, hx⟩ := rxFeed_bad_frame hv hwire (.inr hck)
  rw [frameOf_eq, hset]
  refine ⟨(rxFeed_frame_ends hv hwire).1, ?_, hbuf⟩
  rw [hx, if_neg hfits, if_neg hck, BitVec.or_zero]

end
section
/-! Exchange steps (spec/41_transaction.md section 4): the state behind one, register by register, and runs
of them: the reception of a whole frame, and transactions in which no delimiter comes in. -/

namespace Sys2Proof.Machine

open Sys2Proof

variable {s t : State} {r : List Act}

/-! ## The places of an exchange step (spec/41_transaction.md R176) -/

/-- Behind the transmit state-step: its byte stands on XCH_OUT and XFER at its `exchange`. -/
def sentState (s : State) : State :=
  { s with
    line := { s.line with xchOut := txOut s.txbuf s.tx }
    tx := txNext s.txbuf s.tx
    xf := { s.xf with xresult := s.xf.xresult ||| txRaised s.tx }
    ops := .xfer .exch :: s.ops.tail }

/-- Behind an answered `exchange`: the module's byte stands on XCH_IN. -/
def exchangedState (s : State) : State :=
  { s with
    line := { s.line with xchIn := some (nextByte s) }
    world := { (dropByte s).world with
      events := .exchange s.line.xchOut (nextByte s) :: s.world.events }
    draws := (dropByte s).draws
    ops := .xfer .rx :: s.ops.tail }

/-- Behind the receive state-step on `b`: XCH_IN is sampled. -/
def takenState (b : Byte) (s : State) : State :=
  { s with
    line := { s.line with xchIn := none }
    rx := rxNext b s.rx
    rxa := rxStaged b s.rx s.rxa
    rxbuf := if rxCommits b s.rx then (commit s).rxbuf else s.rxbuf
    draws := if rxCommits b s.rx then s.draws + 1 else s.draws
    xf := { s.xf with
      rxseen := s.xf.rxseen || rxOpens b s.rx
      retry := if rxOpens b s.rx then 0 else s.xf.retry
      xresult := s.xf.xresult ||| rxRaised b s.rx }
    ops := .xfer (.after (decide (s.rx.rxs = .idle))) :: s.ops.tail }

theorem xferLoop_on (ho : s.ops = .xfer .loop :: r) (hc : loopCond s = true) (ht : TxInside s.tx) :
    xferLoop s = .next (sentState s) := by
  rw [xferLoop, if_pos hc, txStep_eq ht, andThen_next, leaveTx_at_loop (r := r)]
  · simp only [sentState, ho, List.tail_cons]
  · exact ho

theorem xferExch_answered (hn : s.world.answers = none) : xferExch s = exchangedState s := by
  rw [xferExch, calling_none hn]
  cases hin : s.world.inbound <;> simp [goto, exchange, emit, dropByte, hin, exchangedState]

theorem xferRx_on {b : Byte} (ho : s.ops = .xfer .rx :: r) (hin : s.line.xchIn = some b) :
    xferRx s = takenState b s := by
  rw [xferRx, leaveRx_at_rx (r := r) (by rw [rxStep_ops, takeIn_ops, ho]), inByte_some s hin,
    takeIn_some s hin, rxStep_eq]
  simp only [takenState, ho, List.tail_cons]
  rfl

/-! ## A whole exchange step -/

/-- RETRY behind an exchange step on `b` (R150, R178). -/
def roundRetry (b : Byte) (s : State) : Nat :=
  if s.rx.rxs = .idle then if b = Config.delim then 0 else s.xf.retry - 1 else s.xf.retry

/-- The state behind an exchange step whose calls are answered, register by register. -/
def roundState (s : State) : State :=
  { s with
    tx := txNext s.txbuf s.tx
    rx := rxNext (nextByte s) s.rx
    rxa := rxStaged (nextByte s) s.rx s.rxa
    rxbuf := if rxCommits (nextByte s) s.rx then (commit (dropByte s)).rxbuf else s.rxbuf
    draws := if rxCommits (nextByte s) s.rx then (dropByte s).draws + 1 else (dropByte s).draws
    xf := { s.xf with
      rxseen := s.xf.rxseen || rxOpens (nextByte s) s.rx
      retry := roundRetry (nextByte s) s
      xresult := s.xf.xresult ||| txRaised s.tx ||| rxRaised (nextByte s) s.rx }
    line := { s.line with xchOut := txOut s.txbuf s.tx, xchIn := none }
    world := { (dropByte s).world with
      events := .delay s.params.tByteUs ::
        .exchange (txOut s.txbuf s.tx) (nextByte s) :: s.world.events } }

/-- The retry update behind the receive state-step on `b`. -/
theorem retryUpdate_taken (b : Byte) {u : State} (hrx : u.rx = s.rx) (hretry : u.xf.retry = s.xf.retry) :
    retryUpdate (decide (s.rx.rxs = .idle)) (takenState b u) =
      { takenState b u with xf := { (takenState b u).xf with retry := roundRetry b s } } := by
  rw [retryUpdate_frame]
  congr 2
  unfold retryUpdate roundRetry
  simp only [takenState, hrx, hretry]
  by_cases hi : s.rx.rxs = .idle
  · by_cases hb : b = Config.delim
    · simp [rxNext, hi, hb, rxOpens]
    · by_cases hz : 0 < s.xf.retry
      · simp [rxNext, rxOpens, hi, hb, hz]
      · simp [rxNext, rxOpens, hi, hb, hz]
        omega
  · simp [hi, rxOpens]

theorem dropByte_sent (s : State) :
    (dropByte (sentState s)).world = (dropByte s).world ∧
      (dropByte (sentState s)).draws = (dropByte s).draws := by
  unfold dropByte
  cases hin : s.world.inbound <;> simp [sentState, hin]

theorem dropByte_answers (s : State) : (dropByte s).world.answers = s.world.answers := by
  unfold dropByte
  split <;> rfl

theorem exchangeRound_eq (hb : s.busy = true) (ho : s.ops = .xfer .loop :: r)
    (hc : loopCond s = true) (hn : s.world.answers = none) (ht : TxInside s.tx) :
    exchangeRound s = .next (roundState s) := by
  have hsent : exchangeRound s = .next (xferByteDelay
      (xferAfter (decide (s.rx.rxs = .idle)) (xferRx (xferExch (sentState s))))) := by
    rw [exchangeRound_next hb ho hc (by simp [hn]) (txStep_eq ht)]
    simp only [sentState, ho, List.tail_cons]
  rw [hsent, xferExch_answered (s := sentState s) hn, xferRx_on rfl rfl, xferAfter,
    retryUpdate_taken _ (s := s) (u := exchangedState (sentState s)) rfl rfl,
    xferByteDelay, calling_none]
  · obtain ⟨hworld, hdraws⟩ := dropByte_sent s
    have hbyte : nextByte (sentState s) = nextByte s := rfl
    simp only [goto, delay, emit, takenState, exchangedState, hworld, hdraws, hbyte]
    simp [roundState, sentState, ho]
  · obtain ⟨hworld, -⟩ := dropByte_sent s
    show (dropByte (sentState s)).world.answers = none
    rw [hworld, dropByte_answers, hn]

/-! ## What a run of exchange steps leaves alone -/

/-- From `s` to `t` the block has exchanged the bytes `out` for the bytes `inn`, and of the registers only
those of the two machines, of the transaction and the exchange ports can have changed. -/
structure Exchanged (s : State) (out inn : List Byte) (t : State) : Prop where
  ops : t.ops = s.ops
  busy : t.busy = s.busy
  txbuf : t.txbuf = s.txbuf
  res : t.res = s.res
  seq : t.seq = s.seq
  params : t.params = s.params
  select : t.line.select = s.line.select
  pwrReq : t.line.pwrReq = s.line.pwrReq
  resetOut : t.line.resetOut = s.line.resetOut
  rxonly : t.xf.rxonly = s.xf.rxonly
  world : t.world = { s.world with inbound := t.world.inbound, events := t.world.events }
  inbound : s.world.inbound = inn ++ t.world.inbound
  sent : outStream t.world.events = outStream s.world.events ++ out
  taken : inStream t.world.events = inStream s.world.events ++ inn

theorem Exchanged.refl (s : State) : Exchanged s [] [] s := by
  constructor <;> simp

theorem Exchanged.trans {u : State} {out inn out' inn' : List Byte} (h : Exchanged s out inn t)
    (h' : Exchanged t out' inn' u) : Exchanged s (out ++ out') (inn ++ inn') u where
  ops := h'.ops.trans h.ops
  busy := h'.busy.trans h.busy
  txbuf := h'.txbuf.trans h.txbuf
  res := h'.res.trans h.res
  seq := h'.seq.trans h.seq
  params := h'.params.trans h.params
  select := h'.select.trans h.select
  pwrReq := h'.pwrReq.trans h.pwrReq
  resetOut := h'.resetOut.trans h.resetOut
  rxonly := h'.rxonly.trans h.rxonly
  world := by rw [h'.world, h.world]
  inbound := by rw [h.inbound, h'.inbound, List.append_assoc]
  sent := by rw [h'.sent, h.sent, List.append_assoc]
  taken := by rw [h'.taken, h.taken, List.append_assoc]

section

variable {b : Byte} {bs : List Byte} (hin : s.world.inbound = b :: bs)

include hin

theorem nextByte_eq : nextByte s = b := by simp [nextByte, hin]

theorem dropByte_eq : dropByte s = { s with world := { s.world with inbound := bs } } := by
  simp [dropByte, hin]

theorem roundState_exchanged : Exchanged s [txOut s.txbuf s.tx] [b] (roundState s) := by
  constructor <;> simp [roundState, nextByte_eq hin, dropByte_eq hin, hin, outStream, inStream]

end

/-! ## Reception of a frame by exchange steps -/

/-- The receive side of `s` is that of `v`, but for the flags `m` raised besides. -/
structure RxSame (m : FlagSet) (s v : State) : Prop where
  rx : s.rx = v.rx
  rxa : s.rxa = v.rxa
  rxbuf : s.rxbuf = v.rxbuf
  draws : s.draws = v.draws
  rxseen : s.xf.rxseen = v.xf.rxseen
  retry : s.xf.retry = v.xf.retry
  xresult : s.xf.xresult = v.xf.xresult ||| m

/-- An exchange step on a byte of a frame is a receive state-step on it. -/
theorem RxSame.round {m : FlagSet} {v : State} {b : Byte} {bs : List Byte} (h : RxSame m s v)
    (hin : s.world.inbound = b :: bs) (hb : s.rx.rxs ≠ .idle ∨ b = Config.delim) :
    RxSame (m ||| txRaised s.tx) (roundState s) (rxStep b v) := by
  have hretry : roundRetry b s = if rxOpens b s.rx then 0 else s.xf.retry := by
    unfold roundRetry rxOpens
    rcases hb with hb | hb
    · simp [hb]
    · by_cases hi : s.rx.rxs = .idle <;> simp [hb, hi]
  rw [rxStep_eq]
  constructor <;>
    simp only [roundState, nextByte_eq hin, dropByte_eq hin, hretry, commit_rxbuf, ← h.rx, ← h.rxa,
      ← h.rxbuf, ← h.draws, ← h.rxseen, ← h.retry]
  case xresult =>
    rw [h.xresult, BitVec.or_assoc, BitVec.or_assoc, BitVec.or_assoc,
      BitVec.or_comm (rxRaised b s.rx), ← BitVec.or_assoc m]

/-- The transmitter raises TX_SUCCESS or nothing. -/
theorem txRaised_cases (q : TxRegs) : txRaised q = 0#9 ∨ txRaised q = 0x002#9 := by
  unfold txRaised
  split <;> simp [flagCode]

/-- An idle transmitter sends FILL, stays idle and raises nothing (R131). -/
theorem txNext_idle {q : TxRegs} (f : FrameBuffer) (h : q.txs = .idle) :
    txNext f q = q ∧ txOut f q = Config.fill ∧ txRaised q = 0#9 := by
  simp [txNext, txOut, txRaised, h]

/-- Exchange steps on the bytes of a frame, the first of which starts it or goes on with it: the receive
machine makes its state-steps on them, while the transmitter goes on beside it. -/
theorem rounds_receive {m : FlagSet} {v : State} {b : Byte} {bs rest : List Byte}
    (hbusy : s.busy = true) (ho : s.ops = .xfer .loop :: r) (hc : loopCond s = true)
    (hn : s.world.answers = none) (ht : TxReady s.txbuf s.tx)
    (hin : s.world.inbound = b :: bs ++ rest) (hb : s.rx.rxs ≠ .idle ∨ b = Config.delim)
    (hrec : Receiving bs (rxStep b v)) (hsame : RxSame m s v) :
    ∃ t out m', exchangeRounds (b :: bs).length s = .next t ∧ Exchanged s out (b :: bs) t ∧
      RxSame (m ||| m') t (rxFeed (b :: bs) v) ∧ (m' = 0#9 ∨ m' = 0x002#9) ∧
      (s.tx.txs = .idle → t.tx.txs = .idle ∧ m' = 0#9 ∧
        out = List.replicate (b :: bs).length Config.fill) := by
  induction bs generalizing s v b m with
  | nil =>
    have hround := exchangeRound_eq hbusy ho hc hn ht.inside
    have hex := roundState_exchanged hin
    have hsame' := hsame.round hin hb
    refine ⟨_, _, _, ?_, hex, hsame', txRaised_cases _, fun hi => ?_⟩
    · simp [exchangeRounds, hround]
    · obtain ⟨hnext, hout, hraised⟩ := txNext_idle s.txbuf hi
      exact ⟨by rw [roundState, hnext, hi], hraised, by rw [hout]; rfl⟩
  | cons c cs ih =>
    have hround := exchangeRound_eq hbusy ho hc hn ht.inside
    have hex := roundState_exchanged hin
    have hsame' := hsame.round hin hb
    obtain ⟨hbusyRx, hrec'⟩ := hrec
    have hrx : (roundState s).rx.rxs ≠ .idle := by rw [hsame'.rx]; exact hbusyRx
    obtain ⟨t, out, m', hrun, hext, hsamet, hm', hidle⟩ := ih (hex.busy.trans hbusy)
      (hex.ops.trans ho) ((loopCond_iff _).2 (.inr (.inl hrx))) (by rw [hex.world, hn]) ht.next
      (List.append_cancel_left (hex.inbound.symm.trans hin)) (.inl hrx) hrec' hsame'
    refine ⟨t, _, txRaised s.tx ||| m', ?_, hex.trans hext, ?_, ?_, fun hi => ?_⟩
    · rw [List.length_cons, exchangeRounds, hround, andThen_next, hrun]
    · rw [← BitVec.or_assoc]
      exact hsamet
    · rcases txRaised_cases s.tx with hx | hx <;> rcases hm' with hm' | hm' <;> simp [hx, hm']
    · obtain ⟨hnext, hout, hraised⟩ := txNext_idle s.txbuf hi
      obtain ⟨htx, hm, hrep⟩ := hidle (by rw [roundState, hnext, hi])
      refine ⟨htx, by rw [hraised, hm, BitVec.or_zero], ?_⟩
      rw [hrep, hout]
      rfl

/-- A frame row at the loop test of a transaction whose receive machine is idle: the frame is exchanged
byte by byte, and the receive side is that of the machine fed the frame. -/
theorem exec_frame_received {i : Instr} {w : Half} {ty ck : Byte} {payload : List Byte}
    (hcode : encode i = .wire (frameBytes w ty payload ck)) (hwf : i.wf = true)
    (hbusy : s.busy = true) (ho : s.ops = .xfer .loop :: r) (hc : loopCond s = true)
    (hi : s.rx.rxs = .idle) (ht : TxReady s.txbuf s.tx) (hn : s.world.answers = none) :
    payload.length = w.toNat - 1 ∧
    ∃ t out m, exec i s = .next t ∧
      Exchanged { s with
        world := { s.world with inbound := frameBytes w ty payload ck ++ s.world.inbound } } out
        (frameBytes w ty payload ck) t ∧
      RxSame m t (rxFeed (frameBytes w ty payload ck) s) ∧ (m = 0#9 ∨ m = 0x002#9) ∧
      (s.tx.txs = .idle → t.tx.txs = .idle ∧ m = 0#9 ∧
        out = List.replicate (payload.length + 5) Config.fill) := by
  obtain ⟨⟨w', ty', payload', ck', hbytes, hlen⟩, hexec⟩ := encode_eq_wire hcode
  obtain ⟨rfl, rfl, rfl, rfl⟩ := frameBytes_inj hbytes
  refine ⟨hlen hwf, ?_⟩
  obtain ⟨-, hrec⟩ := rxFeed_frame ty ck hi (hlen hwf)
  obtain ⟨t, out, m, hrun, hex, hsame, hm, hidle⟩ := rounds_receive (m := 0#9) (v := s)
    (s := { s with
      world := { s.world with inbound := frameBytes w ty payload ck ++ s.world.inbound } })
    hbusy ho hc hn ht rfl (.inr rfl) hrec (by constructor <;> simp)
  refine ⟨t, out, m, ?_, hex, by rw [← BitVec.zero_or (x := m)]; exact hsame, hm, fun h => ?_⟩
  · rw [hexec]
    exact hrun
  · simpa using hidle h

/-- The world behind a frame that was put at the front of the inbound stream and exchanged whole. -/
theorem Exchanged.world_of_front {out bytes : List Byte}
    (h : Exchanged { s with world := { s.world with inbound := bytes ++ s.world.inbound } } out
      bytes t) : t.world = { s.world with events := t.world.events } := by
  have hin : s.world.inbound = t.world.inbound := List.append_cancel_left h.inbound
  rw [h.world, ← hin]

end Sys2Proof.Machine

open Sys2Proof Sys2Proof.Machine

/-! ## Frames received -/

/-- Settles O37: the receive side is that of the machine fed the frame (`exec_frame_received`), which
commits it (`rxFeed_good_frame`). -/
theorem goodFrameIsReceived : Obligations.GoodFrameIsReceived := by
  intro s i r w ty ck payload hcode hwf hbusy ho hc hi hsize hidx hn hfits hck
  obtain ⟨hlen, t, out, m, hexec, hex, hsame, hm, hidle⟩ :=
    exec_frame_received hcode hwf hbusy ho hc hi ⟨hsize, hidx⟩ hn
  obtain ⟨hrxs, hretry, hseen⟩ := rxFeed_frame_ends (ty := ty) (ck := ck) hi hlen
  obtain ⟨hx, hl, hty, hbytes⟩ := rxFeed_good_frame hi hlen hfits hck
  rw [← hsame.rx] at hrxs
  rw [← hsame.retry] at hretry
  rw [← hsame.rxseen] at hseen
  rw [← hsame.rxbuf] at hl hty hbytes
  have hxt : t.xf.xresult = s.xf.xresult ||| 0x004#9 ||| m := by rw [hsame.xresult, hx]
  refine ⟨t, hexec, hl, hty, hbytes, hrxs, hretry, hseen, hex.rxonly, ?_, hex.taken, fun htx => ?_,
    hex.txbuf, hex.res, hex.seq, hex.ops, hex.busy, hex.params, hex.select, hex.pwrReq, hex.resetOut,
    hex.world_of_front⟩
  · rcases hm with rfl | rfl
    · exact .inl (hxt.trans BitVec.or_zero)
    · exact .inr (hxt.trans (BitVec.or_assoc ..))
  · obtain ⟨htxs, rfl, rfl⟩ := hidle htx
    exact ⟨(loopCond_eq_false_iff t).2 ⟨htxs, hrxs, hretry⟩, hxt.trans BitVec.or_zero, hex.sent⟩

/-- Settles O38: the receive side is that of the machine fed the frame, which does not commit it
(`rxFeed_bad_frame`). -/
theorem badOrLongFrameIsNotCommitted : Obligations.BadOrLongFrameIsNotCommitted := by
  intro s i r w ty ck payload hcode hwf hbusy ho hc hi hsize hidx hn hbad
  obtain ⟨hlen, t, out, m, hexec, hex, hsame, hm, hidle⟩ :=
    exec_frame_received hcode hwf hbusy ho hc hi ⟨hsize, hidx⟩ hn
  obtain ⟨hrxs, hretry, hseen⟩ := rxFeed_frame_ends (ty := ty) (ck := ck) hi hlen
  obtain ⟨hbuf, hdraws, hx⟩ := rxFeed_bad_frame hi hlen hbad
  rw [← hsame.rx] at hrxs
  rw [← hsame.retry] at hretry
  rw [← hsame.rxseen] at hseen
  rw [← hsame.rxbuf] at hbuf
  rw [← hsame.draws] at hdraws
  have hxt := hsame.xresult
  rw [hx] at hxt
  refine ⟨t, hexec, hbuf, hdraws, hrxs, hretry, hseen, ⟨fun htx => ?_, ?_⟩, hex.taken, hex.txbuf,
    hex.res, hex.seq, hex.ops, hex.busy, hex.params, hex.select, hex.pwrReq, hex.resetOut,
    hex.world_of_front⟩
  · obtain ⟨htxs, rfl, -⟩ := hidle htx
    exact ⟨hxt.trans BitVec.or_zero, (loopCond_eq_false_iff t).2 ⟨htxs, hrxs, hretry⟩⟩
  · rcases hm with rfl | rfl
    · exact .inl (hxt.trans BitVec.or_zero)
    · exact .inr hxt

/-- Settles O39: no exchange step is made, so the frame's bytes stay at the front of the stream. -/
theorem frameWaitsOutsideATransaction : Obligations.FrameWaitsOutsideATransaction := by
  intro s i bytes hcode hwait
  obtain ⟨-, hexec⟩ := encode_eq_wire hcode
  rw [hexec]
  exact exchangeRounds_idle _ hwait

end
section
/-! Whole transactions without an inbound delimiter (spec/41_transaction.md sections 2 and 5), counted in
steps: the request and the select delay, the exchange steps, the end. -/

namespace Sys2Proof.Machine

open Sys2Proof

variable {s t : State} {r : List Act}

/-! ## Steps of the host's XFER -/

/-- The host's XFER stands at `p`, no host action is pending, and at the loop test the wire is taken a byte
at a time. -/
structure Alone (p : XferPos) (s : State) : Prop where
  busy : s.busy = true
  ops : s.ops = [.xfer p]
  host : s.world.host = []
  grain : p = .loop → s.world.grain = .byte

section

variable {p q : XferPos}

theorem Alone.step_eq (h : Alone p s) : step s = xferMove p s := by
  have hmove : resume s = xferMove p s := by
    rw [resume, h.ops]
    rfl
  rcases step_busy h.busy (by simp [h.ops]) (hostTurn_none h.host) with hstep |
    ⟨n, hhead, -, hframe, -⟩
  · rw [hstep, dropPass_nil s h.host, hmove]
  · have hloop : p = .loop := by simpa [h.ops] using hhead
    rw [h.grain hloop] at hframe
    cases hframe

theorem Alone.at (h : Alone p s) (hq : q ≠ .loop) (hb : t.busy = s.busy) (ho : t.ops = [.xfer q])
    (hh : t.world.host = s.world.host) : Alone q t :=
  ⟨hb.trans h.busy, ho, hh.trans h.host, fun hloop => absurd hloop hq⟩

/-- The return gives RESULT the flags of the transaction and ends the host's operation (R181). -/
theorem Alone.step_ret (h : Alone .ret s) :
    step s = .next { s with
      busy := false, ops := [], res := { s.res with result := s.xf.xresult } } := by
  rw [h.step_eq]
  simp [xferMove, xferRet, finish, setResult, h.ops]

/-- At a `raise` line the flag is raised, and the return follows. -/
theorem Alone.steps_two_raise {f : Flag} (h : Alone (.raise f) s) (hf : raisedByXfer f = true) :
    steps 2 s = .next { s with
      busy := false
      ops := []
      xf := { s.xf with xresult := withFlag f s.xf.xresult }
      res := { s.res with result := withFlag f s.xf.xresult } } := by
  have hraise : step s = .next { raiseX f s with ops := [.xfer .ret] } := by
    rw [h.step_eq, xferMove, raiseNow, raiseFlag_of_xfer s f hf]
    simp [leaveRaise, h.ops]
  have hret : Alone .ret { raiseX f s with ops := [.xfer .ret] } := h.at (by simp) rfl rfl rfl
  rw [steps_next hraise, steps_next hret.step_ret]
  rfl

end

/-! ## Exchange steps without a delimiter -/

/-- The receive side has not changed. -/
structure RxUnchanged (s t : State) : Prop where
  rx : t.rx = s.rx
  rxa : t.rxa = s.rxa
  rxbuf : t.rxbuf = s.rxbuf
  rxseen : t.xf.rxseen = s.xf.rxseen

theorem RxUnchanged.trans {u : State} (h : RxUnchanged s t) (h' : RxUnchanged t u) :
    RxUnchanged s u :=
  ⟨h'.rx.trans h.rx, h'.rxa.trans h.rxa, h'.rxbuf.trans h.rxbuf, h'.rxseen.trans h.rxseen⟩

/-- The host's XFER at its loop test, its receive machine idle and every call answered. -/
structure Waiting (s : State) : Prop extends Alone .loop s where
  rxs : s.rx.rxs = .idle
  answers : s.world.answers = none

theorem Waiting.of_exchanged {out inn : List Byte} (h : Waiting s) (hex : Exchanged s out inn t)
    (hrx : RxUnchanged s t) : Waiting t where
  busy := hex.busy.trans h.busy
  ops := hex.ops.trans h.ops
  host := by rw [hex.world, h.host]
  grain := fun hloop => by rw [hex.world, h.grain hloop]
  rxs := by rw [hrx.rx, h.rxs]
  answers := by rw [hex.world, h.answers]

/-- A byte that is no delimiter is lost to an idle receive machine (R150, R151); RETRY counts down. -/
theorem roundState_silent {b : Byte} {bs : List Byte} (hi : s.rx.rxs = .idle)
    (hin : s.world.inbound = b :: bs) (hb : b ≠ Config.delim) :
    RxUnchanged s (roundState s) ∧ (roundState s).xf.retry = s.xf.retry - 1 ∧
      (roundState s).xf.xresult = s.xf.xresult ||| txRaised s.tx := by
  have hbyte := nextByte_eq hin
  refine ⟨⟨?_, ?_, ?_, ?_⟩, ?_, ?_⟩ <;>
    simp [roundState, hbyte, rxNext, rxStaged, rxCommits, rxOpens, rxRaised, roundRetry, hi, hb]

/-- Five steps are an exchange step. -/
theorem steps_five_round (h : Waiting s) (hc : loopCond s = true) (ht : TxInside s.tx) :
    steps 5 s = .next (roundState s) := by
  rw [steps_five h.busy h.ops hc h.host (h.grain rfl) h.answers,
    exchangeRound_eq h.busy h.ops hc h.answers ht]

theorem steps_five_mul_succ (n : Nat) (h : steps 5 s = .next t) :
    steps (5 * (n + 1)) s = steps (5 * n) t := by
  rw [Nat.mul_succ, Nat.add_comm, steps_add, h, andThen_next]

/-- A transmission without inbound delimiter, exchange step by exchange step. -/
theorem Sends.steps_eq {f : FrameBuffer} {q q' : TxRegs} {out : List Byte} {x : FlagSet}
    (h : Sends f q out x q') {inn rest : List Byte} (hw : Waiting s) (hf : s.txbuf = f)
    (hq : s.tx = q) (hr : TxReady f q) (hlen : inn.length = out.length)
    (hin : s.world.inbound = inn ++ rest) (hno : Config.delim ∉ inn) :
    ∃ t, steps (5 * out.length) s = .next t ∧ Exchanged s out inn t ∧ RxUnchanged s t ∧
      t.tx = q' ∧ t.xf.retry = s.xf.retry - out.length ∧ t.xf.xresult = s.xf.xresult ||| x := by
  induction h generalizing s inn with
  | done q =>
    rw [List.length_nil, List.length_eq_zero_iff] at hlen
    subst hlen
    exact ⟨s, rfl, .refl s, ⟨rfl, rfl, rfl, rfl⟩, hq, rfl, BitVec.or_zero.symm⟩
  | byte hne hrest ih =>
    subst hf hq
    obtain ⟨b, bs, rfl⟩ := List.exists_cons_of_length_eq_add_one hlen
    obtain ⟨hb, hbs⟩ := not_or.1 (mt List.mem_cons.2 hno)
    have hfive := steps_five_round hw ((loopCond_iff s).2 (.inl hne)) hr.inside
    have hex := roundState_exchanged hin
    obtain ⟨hrx, hretry, hx⟩ := roundState_silent hw.rxs hin (Ne.symm hb)
    obtain ⟨t, hrun, hext, hrxt, htx, hretryt, hxt⟩ := ih (hw.of_exchanged hex hrx) hex.txbuf rfl
      hr.next (Nat.succ.inj hlen) (List.append_cancel_left (hex.inbound.symm.trans hin)) hbs
    refine ⟨t, ?_, hex.trans hext, hrx.trans hrxt, htx, ?_, ?_⟩
    · rw [List.length_cons, steps_five_mul_succ _ hfive, hrun]
    · rw [hretryt, hretry, List.length_cons]
      omega
    · rw [hxt, hx, BitVec.or_assoc]

/-- Listening without inbound delimiter: one exchange step a retry, each sending FILL. -/
theorem steps_listening {inn rest : List Byte} (hw : Waiting s) (htx : s.tx.txs = .idle)
    (hretry : s.xf.retry = inn.length) (hin : s.world.inbound = inn ++ rest)
    (hno : Config.delim ∉ inn) :
    ∃ t, steps (5 * inn.length) s = .next t ∧
      Exchanged s (List.replicate inn.length Config.fill) inn t ∧ RxUnchanged s t ∧
      t.tx.txs = .idle ∧ t.xf.retry = 0 ∧ t.xf.xresult = s.xf.xresult := by
  induction inn generalizing s with
  | nil => exact ⟨s, rfl, .refl s, ⟨rfl, rfl, rfl, rfl⟩, htx, hretry, rfl⟩
  | cons b bs ih =>
    obtain ⟨hb, hbs⟩ := not_or.1 (mt List.mem_cons.2 hno)
    have hc : loopCond s = true := (loopCond_iff s).2 (.inr (.inr (by simp [hretry])))
    have hfive := steps_five_round hw hc fun hd => by simp [htx] at hd
    obtain ⟨hnext, hout, hraised⟩ := txNext_idle s.txbuf htx
    have hex := roundState_exchanged hin
    rw [hout] at hex
    obtain ⟨hrx, hretry', hx⟩ := roundState_silent hw.rxs hin (Ne.symm hb)
    obtain ⟨t, hrun, hext, hrxt, htxt, hretryt, hxt⟩ := ih (hw.of_exchanged hex hrx)
      (by rw [roundState, hnext, htx]) (by rw [hretry', hretry]; rfl)
      (List.append_cancel_left (hex.inbound.symm.trans hin)) hbs
    refine ⟨t, ?_, hex.trans hext, hrx.trans hrxt, htxt, hretryt, ?_⟩
    · rw [List.length_cons, steps_five_mul_succ _ hfive, hrun]
    · rw [hxt, hx, hraised, BitVec.or_zero]

/-! ## The start and the end of a transaction -/

/-- The state at the first loop test of a transaction the host requested. -/
def opened (only : Bool) (st : TxState) (retry : Nat) (s : State) : State :=
  { s with
    busy := true
    ops := [.xfer .loop]
    tx := { s.tx with txs := st }
    rx := { s.rx with rxs := .idle }
    xf := { retry := retry, rxseen := false, rxonly := only, xresult := 0#9 }
    line := { s.line with select := true }
    world := { s.world with
      host := []
      events := .delay s.params.tSelectUs :: .select true :: s.world.events } }

/-- The state behind the return of a transaction the host requested, which ends with the flags `x`. -/
def closed (x : FlagSet) (s : State) : State :=
  { s with
    busy := false
    ops := []
    line := { s.line with select := false }
    xf := { s.xf with xresult := x }
    res := { s.res with result := x }
    world := { s.world with events := .select false :: s.world.events } }

/-- The state in which a request for XFER makes its first micro-step. -/
def admitted (s : State) : State := { popHost s with busy := true, ops := [.xfer .start] }

section

variable {w : ReqWord} (hb : s.busy = false) (hh : s.world.host = [.request w])
  (hw : decode (.request w) = .ok .xfer)

include hb hh hw

/-- A request for XFER in BUSY = 0 makes its first micro-step. -/
theorem step_request_xfer :
    step s = .next (xferStart (admitted s)) := by
  have hd : decodeRequest w = .xfer := by simpa [decode] using hw
  rw [step_request hb hh, hd]
  exact hostOp_idle _ hb

/-- Two steps take a transaction that passes the size check to its first loop test. -/
theorem steps_two_opened {only : Bool} {st : TxState} {retry : Nat} (hn : s.world.answers = none)
    (hstart : ∀ u : State, u.txbuf = s.txbuf → u.params = s.params → xferStart u =
      goto (.xfer .selDelay) (selectLine true (loadXfer only st retry (clearX u)))) :
    steps 2 s = .next (opened only st retry s) := by
  have hone := step_request_xfer hb hh hw
  rw [hstart (admitted s) rfl rfl] at hone
  have hdelay : Alone .selDelay
      (goto (.xfer .selDelay) (selectLine true (loadXfer only st retry (clearX (admitted s))))) :=
    ⟨rfl, rfl, by simp [admitted, hh], nofun⟩
  have htwo := hdelay.step_eq
  rw [xferMove, xferSelDelay, calling_none (by exact hn)] at htwo
  rw [steps_next hone, steps_next htwo]
  simp [steps, goto, delay, emit, selectLine, loadXfer, clearX, admitted, popHost, hh, opened]

/-- A transaction that fails the size check ends in three steps with {SIZE_ERROR} and no event (R172). -/
theorem steps_three_sizeError (hf : s.txbuf.frameType ≠ Config.ftNone)
    (hsize : badSize s.txbuf.length = true) :
    steps 3 s = .next { s with
      busy := false
      ops := []
      xf := { s.xf with xresult := 0x001#9 }
      res := { s.res with result := 0x001#9 }
      world := { s.world with host := [] } } := by
  have hone := step_request_xfer hb hh hw
  rw [xferStart, if_neg (by exact hf), if_pos (by exact hsize)] at hone
  have hraise : Alone (.raise .sizeError)
      (goto (.xfer (.raise .sizeError)) (clearX (admitted s))) :=
    ⟨rfl, rfl, by simp [admitted, hh], nofun⟩
  rw [steps_next hone, hraise.steps_two_raise rfl]
  simp [goto, clearX, admitted, popHost, hh, withFlag, flagCode]

end

section

variable (hw : Waiting s) (hc : loopCond s = false)

include hw hc

/-- The loop is over: `select(0)` is called (R180). -/
theorem step_select_off :
    step s = .next (goto (.xfer .finish) (selectLine false s)) ∧
      Alone .finish (goto (.xfer .finish) (selectLine false s)) := by
  refine ⟨?_, hw.toAlone.at (by simp) rfl (by simp [hw.ops]) rfl⟩
  rw [hw.toAlone.step_eq, xferMove, xferLoop, if_neg (by simp [hc])]

/-- A transaction that sent, or received a delimiter, returns its flags (R181). -/
theorem steps_two_closed (hm : s.xf.rxonly = false ∨ s.xf.rxseen = true) :
    steps 2 s = .next (closed s.xf.xresult s) := by
  obtain ⟨hone, hfinish⟩ := step_select_off hw hc
  have hdue : (s.xf.rxonly && !s.xf.rxseen) = false := by rcases hm with hm | hm <;> simp [hm]
  have htwo := hfinish.step_eq
  rw [xferMove, xferFinish, if_neg (by simp [hdue])] at htwo
  rw [steps_next hone, steps_next htwo]
  simp [steps, xferRet, finish, setResult, goto, selectLine, emit, closed, hw.ops]

/-- A receive-only transaction without inbound delimiter raises NO_DATA and returns (R179, R181). -/
theorem steps_four_closed (honly : s.xf.rxonly = true) (hseen : s.xf.rxseen = false) :
    steps 4 s = .next (closed (s.xf.xresult ||| 0x008#9) s) := by
  obtain ⟨hone, hfinish⟩ := step_select_off hw hc
  have htwo := hfinish.step_eq
  rw [xferMove, xferFinish, if_pos (by simp [honly, hseen])] at htwo
  have hraise : Alone (.raise .noData)
      (goto (.xfer (.raise .noData)) (goto (.xfer .finish) (selectLine false s))) :=
    hfinish.at (by simp) rfl (by simp [hw.ops]) rfl
  rw [steps_next hone, steps_next htwo, hraise.steps_two_raise rfl]
  simp [goto, selectLine, emit, withFlag, flagCode, closed]

end

end Sys2Proof.Machine

open Sys2Proof Sys2Proof.Machine

/-- Settles O28: a length that fails the size check ends in three steps (`steps_three_sizeError`), any other
loads the transmit mode (R172, R173). -/
theorem xferSizeCheck : Obligations.XferSizeCheck := by
  intro s w hb hf hh hw
  have hfirst : exec .xfer s = .next (xferStart { s with busy := true, ops := [.xfer .start] }) :=
    hostOp_idle _ hb
  refine ⟨fun hlen => ?_, fun hpos hlt => ?_⟩
  · have hsize : badSize s.txbuf.length = true := (badSize_iff _).2 hlen
    constructor
    · rw [hfirst, xferStart, if_neg (by exact hf), if_pos (by exact hsize)]
      rfl
    · exact steps_three_sizeError hb hh hw hf hsize
  · have hsize : badSize s.txbuf.length = false := (badSize_eq_false_iff _).2 ⟨hpos, hlt⟩
    refine ⟨_, hfirst, ?_⟩
    rw [xferStart, if_neg (by exact hf), if_neg (by simp [hsize])]
    exact ⟨rfl, rfl, rfl⟩

/-- Settles O34: two steps to the loop test, the L + 5 exchange steps of `sends_frame`, two steps to the
return. -/
theorem silentTransmissionSendsTheFrame : Obligations.SilentTransmissionSendsTheFrame := by
  intro s w bs rest hb hh hw hg hn hf hpos hlt hin hlen hno
  have hsize : badSize s.txbuf.length = false := (badSize_eq_false_iff _).2 ⟨hpos, hlt⟩
  have hopen := steps_two_opened (only := false) (st := .header) (retry := 0) hb hh hw hn
    fun u hu _ => by rw [xferStart, hu, if_neg (by exact hf), if_neg (by simp [hsize])]
  have hwait : Waiting (opened false .header 0 s) := ⟨⟨rfl, rfl, rfl, fun _ => hg⟩, rfl, hn⟩
  obtain ⟨q', hsend, hidle⟩ := sends_frame (f := s.txbuf)
    (q := (opened false .header 0 s).tx) rfl hpos
  obtain ⟨t, hrun, hex, hrx, htx, hretry, hx⟩ := hsend.steps_eq hwait rfl rfl
    ⟨fun _ => hsize, fun hd => by cases hd⟩ (by rw [frameOf_length, hlen]) hin hno
  have hrxs : t.rx.rxs = .idle := by rw [hrx.rx]; rfl
  have hover : loopCond t = false :=
    (loopCond_eq_false_iff t).2 ⟨by rw [htx, hidle], hrxs, by rw [hretry]; exact Nat.zero_sub _⟩
  have hclose := steps_two_closed (hwait.of_exchanged hex hrx) hover (.inl hex.rxonly)
  have hresult : t.xf.xresult = 0x002#9 := hx.trans BitVec.zero_or
  have hrest : t.world.inbound = rest := List.append_cancel_left (hex.inbound.symm.trans hin)
  refine ⟨closed t.xf.xresult t, ?_, hex.sent, hex.taken, hrest, ?_, hresult, hrx.rxbuf, hex.txbuf,
    hrx.rxa, hex.seq, (congrArg TxRegs.txs htx).trans hidle, hrxs, rfl, hex.pwrReq, hex.resetOut, rfl,
    hex.params⟩
  · have hcount : 5 * (s.txbuf.length.toNat + 5) + 4 = 2 + (5 * (frameOf s.txbuf).length + 2) := by
      rw [frameOf_length]
      omega
    rw [hcount, steps_add, hopen, andThen_next, steps_add, hrun, andThen_next, hclose]
  · rw [closed, hresult, hex.res]
    rfl

/-- Settles O35: two steps to the loop test, one exchange step a retry, four steps over NO_DATA to the
return. -/
theorem receiveOnlyWithoutDelimiterReportsNoData :
    Obligations.ReceiveOnlyWithoutDelimiterReportsNoData := by
  intro s w bs rest hb hh hw hg hn hf hin hlen hno
  have hopen := steps_two_opened (only := true) (st := .idle) (retry := s.params.retryBudget) hb hh hw
    hn fun u hu hp => by rw [xferStart, hu, if_pos (by exact hf), hp]
  have hwait : Waiting (opened true .idle s.params.retryBudget s) :=
    ⟨⟨rfl, rfl, rfl, fun _ => hg⟩, rfl, hn⟩
  obtain ⟨t, hrun, hex, hrx, htx, hretry, hx⟩ := steps_listening hwait rfl hlen.symm hin hno
  rw [hlen] at hrun hex
  have hover : loopCond t = false :=
    (loopCond_eq_false_iff t).2 ⟨htx, by rw [hrx.rx]; rfl, hretry⟩
  have hclose := steps_four_closed (hwait.of_exchanged hex hrx) hover hex.rxonly hrx.rxseen
  have hresult : t.xf.xresult ||| 0x008#9 = 0x008#9 := by rw [hx]; exact BitVec.zero_or
  have hrest : t.world.inbound = rest := List.append_cancel_left (hex.inbound.symm.trans hin)
  rw [hresult] at hclose
  refine ⟨closed 0x008#9 t, ?_, hex.sent, hex.taken, hrest, ?_, rfl, hrx.rxbuf, hex.txbuf, hrx.rxa,
    hex.seq, rfl, hex.pwrReq, hex.resetOut, rfl, hex.params⟩
  · have hcount : 5 * s.params.retryBudget + 6 = 2 + (5 * s.params.retryBudget + 4) := by omega
    rw [hcount, steps_add, hopen, andThen_next, steps_add, hrun, andThen_next, hclose]
  · rw [closed, hex.res]
    rfl

end
section
/-! What a step runs (spec/00_scope.md section 2), the host port (spec/10_state.md section 8), reset, and the
buffer image (spec/20_memory.md section 1). -/

namespace Sys2Proof.Machine

open Sys2Proof

variable {s t u : State} {i : Instr} {r : List Act}

/-! ## A host that makes no access -/

/-- While an operation runs and the host makes no access, the step is the block's own, from `t`. -/
theorem HostQuiet.turn (h : HostQuiet s t) (hb : s.busy = true) :
    hostTurn s = none ∧ dropPass s = t := by
  rcases h with ⟨hh, rfl⟩ | ⟨l, hh, rfl⟩ | ⟨l, hh, rfl⟩
  · exact ⟨hostTurn_none hh, dropPass_nil _ hh⟩
  · exact ⟨by simp [hostTurn, hh, hb], dropPass_awaitIdle _ hh⟩
  · exact ⟨hostTurn_pass hh, dropPass_pass _ hh⟩

/-- Only the host's list of actions can differ. -/
theorem HostQuiet.frame (h : HostQuiet s t) :
    ∃ l, t = { s with world := { s.world with host := l } } := by
  rcases h with ⟨-, rfl⟩ | ⟨l, -, rfl⟩ | ⟨l, -, rfl⟩
  exacts [⟨_, rfl⟩, ⟨_, rfl⟩, ⟨l, rfl⟩]

/-- The step runs what the block fetches. -/
theorem HostQuiet.step_fetched (h : HostQuiet s t) (hb : s.busy = true)
    (hf : fetchBusy t = some (i, u)) : step s = exec i u := by
  obtain ⟨hturn, hdrop⟩ := h.turn hb
  simp [step, hturn, fetch, hb, hdrop, hf]

/-- Off the loop test a step is one micro-step of the innermost activation. -/
theorem HostQuiet.step_move {a : Act} (h : HostQuiet s t) (hb : s.busy = true)
    (ho : s.ops = a :: r) (ha : a ≠ .xfer .loop) : step s = move a t := by
  obtain ⟨hturn, hdrop⟩ := h.turn hb
  rcases step_busy hb (by simp [ho]) hturn with hstep | ⟨n, hhead, -⟩
  · obtain ⟨l, rfl⟩ := h.frame
    rw [hstep, hdrop, resume]
    simp [ho]
  · exact absurd (by simpa [ho] using hhead) ha

/-! ## What the block fetches -/

theorem fetchBusy_loop (ho : s.ops = .xfer .loop :: r) (hc : loopCond s = true)
    (hg : s.world.grain = .byte) : fetchBusy s = some (txInstr s.tx.txs, s) := by
  simp [fetchBusy, ho, hc, fetchFrame, hg]

theorem fetchBusy_frame (ho : s.ops = .xfer .loop :: r) (hc : loopCond s = true)
    (hf : fetchFrame s = some (i, u)) : fetchBusy s = some (i, u) := by
  simp [fetchBusy, ho, hc, hf]

theorem fetchBusy_rx (ho : s.ops = .xfer .rx :: r) : fetchBusy s = some (rxInstr s.rx.rxs, s) := by
  unfold fetchBusy
  rw [ho]

theorem fetchBusy_raise {f : Flag} (ho : s.ops = .xfer (.raise f) :: r) :
    fetchBusy s = some (flagInstr f, s) := by
  unfold fetchBusy
  rw [ho]

theorem fetchBusy_op (hrx : s.ops ≠ .xfer .rx :: s.ops.tail)
    (hraise : ∀ f, s.ops ≠ .xfer (.raise f) :: s.ops.tail)
    (hloop : s.ops ≠ .xfer .loop :: s.ops.tail ∨ loopCond s = false) (hi : current s = some i) :
    fetchBusy s = some (i, s) := by
  have hop : fetchOp s = some (i, s) := by simp [fetchOp, hi]
  unfold fetchBusy
  split
  next r ho =>
    have hc : loopCond s = false := hloop.resolve_left (by simp [ho])
    simp [hc, hop]
  next r ho => simp [ho] at hrx
  next f r ho => exact absurd (by simp [ho]) (hraise f)
  next => exact hop

/-- A frame decoded from its own bytes is decoded from the front of any stream they start. -/
theorem decodeFrame_of_decode_wire {bytes : List Byte} (rest : List Byte)
    (h : decode (.wire bytes) = .ok i) : decodeFrame (bytes ++ rest) = .ok (i, rest) := by
  have hframe : decodeFrame bytes = .ok (i, []) := by
    unfold decode at h
    dsimp only at h
    split at h
    · rename_i hd
      cases h
      exact hd
    · cases h
    · cases h
  obtain ⟨w, t, payload, ck, rfl, hlen, rfl⟩ := decodeFrame_eq_ok hframe
  rw [List.append_nil, decodeFrame_frameBytes t ck rest hlen]

/-! ## The buffer image -/

theorem memRead_cons (b : FrameBuffer) (a n : Nat) :
    memRead b a (n + 1) = imageByte b a :: memRead b (a + 1) n := by
  simp [memRead, List.range_succ_eq_map, Nat.add_assoc, Nat.add_comm 1]

/-- A write leaves the image bytes outside it alone. -/
theorem imageByte_memWrite_outside (b : FrameBuffer) (a : Nat) {vs : List Byte} {i : Nat}
    (h : i < a ∨ a + vs.length ≤ i) : imageByte (memWrite b a vs) i = imageByte b i := by
  induction vs generalizing b a with
  | nil => rfl
  | cons v vs ih =>
    simp only [List.length_cons] at h
    rw [memWrite, ih _ _ (by omega), imageByte_setImageByte_of_ne _ _ (by omega)]

/-- What was written reads back. -/
theorem memRead_memWrite (b : FrameBuffer) (a : Nat) (vs : List Byte) :
    memRead (memWrite b a vs) a vs.length = vs := by
  induction vs generalizing b a with
  | nil => rfl
  | cons v vs ih =>
    rw [List.length_cons, memRead_cons, memWrite, ih,
      imageByte_memWrite_outside _ _ (.inl (Nat.lt_succ_self a)), imageByte_setImageByte_same]

end Sys2Proof.Machine

open Sys2Proof Sys2Proof.Machine

/-! ## The step -/

/-- Settles O5: the request at the front is what the idle block fetches. -/
theorem stepRunsRequestedInstruction : Obligations.StepRunsRequestedInstruction := by
  intro s w i r hb hh hi
  have hd : decodeRequest w = i := by simpa [decode] using hi
  rw [step_request hb hh, hd, popHost, hh, List.tail_cons]

/-- Settles O6: the four places of OPS, each by what the block fetches there. -/
theorem stepRunsInstructionInProgress : Obligations.StepRunsInstructionInProgress := by
  intro s t i r hb hquiet hg
  obtain ⟨l, rfl⟩ := hquiet.frame
  refine ⟨fun ho hc hi => ?loop, fun ho hi => ?rx, fun f ho hi => ?raise,
    fun hrx hraise hloop hr hi => ?op⟩
  case loop =>
    rw [decode_txStateCode] at hi
    cases hi
    exact hquiet.step_fetched hb (fetchBusy_loop ho hc hg)
  case rx =>
    rw [decode_rxStateCode] at hi
    cases hi
    exact hquiet.step_fetched hb (fetchBusy_rx ho)
  case raise =>
    rw [decode_flagCode] at hi
    cases hi
    exact hquiet.step_fetched hb (fetchBusy_raise ho)
  case op =>
    subst hr
    exact hquiet.step_fetched hb (fetchBusy_op hrx hraise hloop hi)

/-- Settles O7: the frame at the front of the wire is what the block fetches at the loop test. -/
theorem stepRunsFrameOnTheWire : Obligations.StepRunsFrameOnTheWire := by
  intro s t i r bytes rest hb hquiet hg ho hc hin hi
  obtain ⟨l, rfl⟩ := hquiet.frame
  have hframe := decodeFrame_of_decode_wire rest hi
  exact hquiet.step_fetched hb (fetchBusy_frame ho hc (by simp [fetchFrame, hg, hin, hframe]))

/-- Settles O8: an idle block fetches nothing; a call that is never answered leaves the state as it is
(`calling_hung`). -/
theorem idleOrHungBlockDoesNothing : Obligations.IdleOrHungBlockDoesNothing := by
  refine ⟨fun s hb => ⟨fun hh => ?_, fun l hh => ?_⟩, fun s i a r hrun hn ha => ?_⟩
  · simp only [step, hostTurn, hh, fetch, hb, Bool.false_eq_true, if_false, idleStep, dropPass_nil s hh]
    rw [← hb]
  · simp only [step, hostTurn, hh, fetch, hb, Bool.false_eq_true, if_false, idleStep,
      dropPass_pass s hh]
  · rw [exec_running hrun]
    rcases ha with rfl | rfl | rfl | rfl | ⟨st, n, rfl, hlim⟩ | ⟨n, rfl, hlim⟩
    · exact congrArg Host.Outcome.next (calling_hung hn)
    · exact congrArg Host.Outcome.next (calling_hung hn)
    · exact congrArg Host.Outcome.next (calling_hung hn)
    · rw [move, pulseMove, calling_hung hn]
    · rw [move, waitPowerMove, if_neg (by rwa [pollLimitReached_iff]), calling_hung hn]
    · rw [move, waitAttnMove, if_neg (by rwa [pollLimitReached_iff]), calling_hung hn]

/-! ## The host port -/

/-- Settles O9: the host's turn comes first, and with BUSY = 1 it refuses a request (R330). -/
theorem requestWhileBusyRefused : Obligations.RequestWhileBusyRefused := by
  intro s w r hb hh
  simp [step, hostTurn, hh, hb]

/-- Settles O10: the host's turn, action by action, and the registers one by one. -/
theorem hostAccessRules : Obligations.HostAccessRules := by
  intro s a n bytes b q r
  refine ⟨fun hh hb => ?_, fun hh hb => ?_, ?_, fun hh hb hq => ?_, fun hh hq => ?_, rfl, rfl, rfl, rfl,
    rfl, rfl, rfl, rfl, ?_, rfl, fun hh hb hlen => ?_, fun hh hb hlen => ?_, fun hh hb hlen => ?_,
    fun hh hb hlen => ?_, fun hh hb => ?_⟩
  · simp [step, hostTurn, hh, hostWrite, hb]
  · simp [step, hostTurn, hh, hostRead, hb]
  · cases q <;> simp [anyTime]
  · simp [step, hostTurn, hh, hostReadReg, hb, hq]
  · have hallowed : (s.busy && !anyTime q) = false := by rcases hq with hq | hq <;> simp [hq]
    simp [step, hostTurn, hh, hostReadReg, hallowed]
  · cases hp : s.line.pwrReq <;> simp [readHostReg, hp, powerBit]
  · have hout : ¬ a + bytes.length ≤ imageSize := Nat.not_le.2 hlen
    simp [step, hostTurn, hh, hostWrite, hb, hout]
  · have hout : ¬ a + n ≤ imageSize := Nat.not_le.2 hlen
    simp [step, hostTurn, hh, hostRead, hb, hout]
  · have hin : a + bytes.length ≤ imageSize := hlen
    simp [step, hostTurn, hh, hostWrite, hb, hin, popHost]
  · have hin : a + n ≤ imageSize := hlen
    simp [step, hostTurn, hh, hostRead, hb, hin]
  · simp [step, hostTurn, hh, hb, popHost]

/-- Settles O11: what was written reads back, the rest stays, and bytes 0 to 2 are length and type. -/
theorem imageReadsBackWhatWasWritten : Obligations.ImageReadsBackWhatWasWritten := by
  intro b a bytes
  refine ⟨memRead_memWrite b a bytes, fun i hi => imageByte_memWrite_outside b a hi,
    fun lo hi ty => ?_, fun i => by rw [Nat.add_comm]; rfl⟩
  have hread : memRead b 0 3 = [loByte b.length, hiByte b.length, b.frameType] := rfl
  rw [hread]
  constructor
  · intro h
    obtain ⟨rfl, rfl, rfl⟩ : loByte b.length = lo ∧ hiByte b.length = hi ∧ b.frameType = ty := by
      simpa using h
    exact ⟨(joinBytes_hi_lo b.length).symm, rfl⟩
  · rintro ⟨hl, rfl⟩
    have hjoin : b.length = joinBytes hi lo := hl
    rw [hjoin, loByte_joinBytes, hiByte_joinBytes]

/-! ## Reset -/

/-- Settles O12: the step is the block reset, whose registers are those of reset (R320). -/
theorem blockResetAbandonsOperation : Obligations.BlockResetAbandonsOperation := by
  intro s r hh
  refine ⟨blockReset (popHost s), by simp [step, hostTurn, hh], rfl, rfl, rfl, rfl, rfl, rfl, rfl, rfl,
    rfl, rfl, rfl, rfl, rfl, rfl, rfl, rfl, rfl, rfl, rfl, rfl, rfl, rfl, ?_⟩
  show (popHost s).world = _
  rw [popHost_world, hh, List.tail_cons]

/-- Settles O13: the reset state, register by register (R45). -/
theorem resetLeavesTheBlockIdle : Obligations.ResetLeavesTheBlockIdle :=
  ⟨rfl, rfl, rfl, rfl, fun _ => rfl, fun _ => rfl, rfl, rfl, rfl, rfl, rfl, rfl, rfl, rfl, rfl, rfl, rfl,
    rfl, rfl, rfl, rfl, rfl, rfl⟩

/-! ## Requests -/

/-- Settles O26: an accepted operation makes its first micro-step from BUSY = 1 and OPS holding it. -/
theorem acceptedOperationStarts : Obligations.AcceptedOperationStarts := by
  intro s c0 c1 plen st hb at_
  have hsame {i : Instr} (a : Act) (ha : a.instr = i) (h : exec i s = hostOp a s) :
      exec i s = exec i (at_ a) := by
    rw [h, hostOp_idle a hb, exec_running (a := a) (r := []) ⟨rfl, rfl, by rw [← ha]; rfl⟩]
  refine ⟨hsame _ rfl rfl, hsame _ rfl rfl, hsame _ rfl rfl, hsame _ rfl rfl, hsame _ rfl rfl, ?_, ?_,
    ?_, ?_, ?_⟩
  all_goals exact hostOp_idle _ hb

/-- Settles O27: every reserved row is the one refusal, whose name depends on BUSY (R106). -/
theorem reservedCodesRefused : Obligations.ReservedCodesRefused := by
  intro s i hi
  have hexec : exec i s = reserved s := by
    rcases hi with rfl | rfl | rfl | rfl | rfl | rfl | rfl <;> rfl
  rw [hexec]
  exact ⟨fun hb => by simp [reserved, hb], fun hb => by simp [reserved, hb]⟩

end
section
/-! The operations micro-step by micro-step (spec/41_transaction.md to spec/44_sequencer.md): what each place
of each pseudocode does in a running operation. -/

namespace Sys2Proof.Machine

open Sys2Proof

variable {s t u : State} {i : Instr} {a : Act} {r : List Act}

/-! ## OPS in a running operation -/

/-- The innermost activation ends: OPS is what waited, and BUSY says whether anything did. -/
theorem Running.finish_eq (h : Running s i a r) (ho : t.ops = s.ops) (hb : t.busy = s.busy) :
    finish t = { t with busy := busyAfter r, ops := r } := by
  have hops := h.2.1
  rw [finish, ho, hb, hops, List.tail_cons, h.busy_finish]

/-- The innermost activation returns the flags `x`. -/
theorem Running.return_eq (h : Running s i a r) (x : FlagSet) :
    finish (setResult x s) =
      { s with res := { s.res with result := x }, busy := busyAfter r, ops := r } :=
  h.finish_eq (t := setResult x s) rfl rfl

theorem Running.goto_eq (h : Running s i a r) (b : Act) (ho : t.ops = s.ops) :
    goto b t = { t with ops := b :: r } := by
  rw [goto, ho, h.2.1, List.tail_cons]

theorem Running.call_eq (h : Running s i a r) (b c : Act) (ho : t.ops = s.ops) :
    call b c t = { t with ops := b :: c :: r } := by
  rw [call, ho, h.2.1, List.tail_cons]

/-! ## Places whose next state other proofs need too -/

/-- XFER goes on to its return behind a `raise` line. -/
theorem raiseNow_on {f : Flag} (ho : s.ops = .xfer (.raise f) :: r) :
    raiseNow f s = .next { raiseFlag f s with ops := .xfer .ret :: r } := by
  have hops : (raiseFlag f s).ops = .xfer (.raise f) :: r := by rw [raiseFlag_frame, ho]
  simp [raiseNow, leaveRaise, hops]

/-- One sample of a wait that goes on. -/
theorem waitPowerMove_unmatched {st p : Power} {n : Nat} {l : List Power}
    (hlim : s.params.pollLimit = none) (hn : s.world.answers = none)
    (hin : s.world.statusIn = p :: l) (hp : p ≠ st) :
    waitPowerMove st n s = { s with
      world := { s.world with statusIn := l, events := .readStatus p :: s.world.events }
      ops := .waitPower st (n + 1) :: s.ops.tail } := by
  rw [waitPowerMove, if_neg (by simp [pollLimitReached, hlim]), calling_none hn]
  simp [nextStatus, hin, hp, readStatusLine, dropStatus, emit, goto]

theorem waitAttnMove_unmatched {n : Nat} {l : List Bool} (hlim : s.params.pollLimit = none)
    (hn : s.world.answers = none) (hin : s.world.attnIn = false :: l) :
    waitAttnMove n s = { s with
      world := { s.world with attnIn := l, events := .readAttn false :: s.world.events }
      ops := .waitAttn (n + 1) :: s.ops.tail } := by
  rw [waitAttnMove, if_neg (by simp [pollLimitReached, hlim]), calling_none hn]
  simp [nextAttn, hin, readAttentionLine, dropAttn, emit, goto]

/-- The host does nothing for `n` steps, or lets `n` steps pass and then does `h`. -/
def Leaves (n : Nat) (host h : List HostAct) : Prop :=
  (host = [] ∧ h = []) ∨ host = List.replicate n .pass ++ h

/-- The state behind the first micro-step of a requested RESET_PULSE: `reset_assert` has been called. -/
def assertedState (s : State) : State :=
  goto (.pulse .hold) (resetAssert { popHost s with busy := true, ops := [.pulse .start] })

theorem decodeRequest_of_decode {w : ReqWord} (h : decode (.request w) = .ok i) : decodeRequest w = i := by
  simpa [decode] using h

theorem Leaves.host_zero {host h : List HostAct} (hl : Leaves 0 host h) : h = host := by
  rcases hl with ⟨rfl, rfl⟩ | rfl <;> rfl

/-- A host that leaves `n + 1` steps to the block leaves it this one, and `n` behind it. -/
theorem Leaves.step {n : Nat} {h : List HostAct} (hl : Leaves (n + 1) s.world.host h) :
    ∃ l, HostQuiet s { s with world := { s.world with host := l } } ∧ Leaves n l h := by
  rcases hl with ⟨hh, rfl⟩ | hh
  · exact ⟨[], .inl ⟨hh, by rw [← hh]⟩, .inl ⟨rfl, rfl⟩⟩
  · exact ⟨List.replicate n .pass ++ h, .inr (.inr ⟨_, hh, rfl⟩), .inr rfl⟩

end Sys2Proof.Machine

open Sys2Proof Sys2Proof.Machine

/-! ## XFER -/

/-- Settles O29: the type, then the length, choose among the three starts (R171 to R174). -/
theorem transactionStart : Obligations.TransactionStart := by
  intro s i r h
  have hops := h.2.1
  rw [exec_running h, move, xferMove]
  refine ⟨fun hf hpos hlt => ?_, fun hf hlen => ?_, fun hf => ?_⟩
  · have hsize : badSize s.txbuf.length = false := (badSize_eq_false_iff _).2 ⟨hpos, hlt⟩
    rw [xferStart, if_neg (by exact hf), if_neg (by simp [hsize])]
    simp [goto, selectLine, emit, loadXfer, clearX, hops]
  · have hsize : badSize s.txbuf.length = true := (badSize_iff _).2 hlen
    rw [xferStart, if_neg (by exact hf), if_pos hsize]
    simp [goto, clearX, hops]
  · rw [xferStart, if_pos (by exact hf)]
    simp [goto, selectLine, emit, loadXfer, clearX, hops]

/-- Settles O30: the select delay, and the loop test by whether the loop goes on (R177, R180). -/
theorem loopTestAndDelays : Obligations.LoopTestAndDelays := by
  intro s i r
  refine ⟨fun h hn => ?_, fun h => ⟨?_, fun htx hrx hretry => ?_, fun hgo => ?_⟩⟩
  · rw [exec_running h, move, xferMove, xferSelDelay, calling_answered hn,
      h.goto_eq (t := delay _ (countCall s)) _ rfl]
    rfl
  · rw [leaveTx_at_loop h.2.1]
  · have hc : loopCond s = false := (loopCond_eq_false_iff s).2 ⟨htx, hrx, hretry⟩
    rw [exec_running h, move, xferMove, xferLoop, if_neg (by simp [hc]),
      h.goto_eq (t := selectLine _ _) _ rfl]
    rfl
  · have hc : loopCond s = true := (loopCond_iff s).2 hgo
    rw [exec_running h, exec_txInstr, move, xferMove, xferLoop, if_pos hc]

/-- Settles O31: `exchange`, the receive state-step, the retry update and the byte delay (R176, R178). -/
theorem exchangeThenRetryUpdate : Obligations.ExchangeThenRetryUpdate := by
  intro s i r
  refine ⟨fun h hn => ⟨fun b bs hin => ?_, fun hin => ⟨Config.freeByte s.draws 0, ?_⟩⟩,
    fun h => ⟨?_, ?_⟩, fun w h => ?_, fun h hn => ?_⟩
  · rw [exec_running h, move, xferMove, xferExch, calling_answered hn]
    simp [goto, exchange, emit, dropByte, nextByte, countCall, hin, h.2.1]
  · rw [exec_running h, move, xferMove, xferExch, calling_answered hn]
    simp [goto, exchange, emit, dropByte, nextByte, countCall, hin, h.2.1]
  · rw [exec_running h, exec_rxInstr]
    rfl
  · rw [leaveRx_at_rx h.2.1]
  · rw [exec_running h, move, xferMove, xferAfter,
      h.goto_eq (t := retryUpdate w s) _ (retryUpdate_ops s w), retryUpdate]
    by_cases hw : w = true ∧ s.rx.rxs = .idle
    · by_cases hz : 0 < s.xf.retry
      · simp [hw, hz]
      · have hzero : s.xf.retry = 0 := by omega
        simp [hw, hzero]
        rw [← hzero]
    · have hoff : (w && decide (s.rx.rxs = .idle)) = false := by simpa using hw
      simp [hw, hoff]
  · rw [exec_running h, move, xferMove, xferByteDelay, calling_answered hn,
      h.goto_eq (t := delay _ (countCall s)) _ rfl]
    rfl

/-- Settles O32: NO_DATA or the return behind the loop, the flag's line, the return (R179, R181). -/
theorem transactionEnd : Obligations.TransactionEnd := by
  intro s i r return_
  have hret {p : XferPos} (h : Running s i (.xfer p) r) : Host.Outcome.next (xferRet s) = return_ := by
    rw [xferRet, h.return_eq]
  refine ⟨fun h => ⟨fun honly hseen => ?_, fun hm => ?_⟩, fun f h => ⟨?_, ?_⟩, fun h => ?_⟩
  · rw [exec_running h, move, xferMove, xferFinish, if_pos (by simp [honly, hseen]),
      h.goto_eq (t := s) _ rfl]
  · have hdue : (s.xf.rxonly && !s.xf.rxseen) = false := by rcases hm with hm | hm <;> simp [hm]
    rw [exec_running h, move, xferMove, xferFinish, if_neg (by simp [hdue]), hret h]
  · rw [exec_running h, exec_flagInstr]
    rfl
  · simp [leaveRaise, h.2.1]
  · rw [exec_running h, move, xferMove, hret h]

/-! ## The command layer -/

/-- Settles O42: the header writes of `writeCommand`, byte by byte, and behind XFER the copy of its
flags (R200 to R203). -/
theorem sendCommandFillsTxbufAndKeepsResult : Obligations.SendCommandFillsTxbufAndKeepsResult := by
  intro s i c0 c1 plen r
  refine ⟨fun h => ⟨_, exec_running h, ?_, rfl, ?_, ?_, ?_, ?_, fun j hj => ?_⟩, fun h => ?_⟩
  · exact h.call_eq (t := { s with txbuf := _ }) _ _ rfl
  · show (commandLength plen).toNat = _
    have hplen := plen.isLt
    unfold commandLength
    rw [BitVec.toNat_add, BitVec.toNat_setWidth, Nat.mod_eq_of_lt (a := plen.toNat) (by omega)]
    exact Nat.mod_eq_of_lt (show 3 + plen.toNat < 2 ^ 16 by omega)
  · exact writeCommand_byte ..
  · exact writeCommand_byte ..
  · exact writeCommand_byte ..
  · have hbyte := writeCommand_byte s.params.cmdFrameId c0 c1 plen s.txbuf j
    rw [if_neg (by omega), if_neg (by omega), if_neg (by omega)] at hbyte
    exact hbyte
  · rw [exec_running h, move, sendMove, h.finish_eq (t := setResult s.xf.xresult (saveSend s)) rfl rfl]
    rfl

/-- Settles O43: attention first, then XFER in receive-only mode, unless the wait gave up (R210, R211). -/
theorem receiveResponseWaitsThenReceives : Obligations.ReceiveResponseWaitsThenReceives := by
  intro s i r
  refine ⟨fun h => ?_, fun h => ⟨fun hflag => ?_, fun hflag => ?_⟩, fun h => ?_⟩
  · rw [exec_running h, move, recvMove, h.call_eq _ _ rfl]
  · have hgave : hasFlag .pollTimeout s.res.result = true := (hasFlag_iff _ _).2 hflag
    rw [exec_running h, move, recvMove, if_pos hgave, giveUp, h.return_eq]
    rfl
  · have hgave : hasFlag .pollTimeout s.res.result = false := (hasFlag_eq_false_iff _ _).2 hflag
    rw [exec_running h, move, recvMove, if_neg (by simp [hgave]),
      h.call_eq (t := { s with txbuf := writeSentinel s.txbuf }) _ _ rfl]
    rfl
  · rw [exec_running h, move, recvMove, h.return_eq]

/-- Settles O44: SEND_COMMAND first, then check (a) on SEND_RESULT (R220). -/
theorem doCommandSendsFirst : Obligations.DoCommandSendsFirst := by
  intro s i c0 c1 plen r
  refine ⟨fun h => ?_, fun h => ⟨fun hflag => ?_, fun hflag => ?_⟩⟩
  · rw [exec_running h, move, doMove, h.call_eq _ _ rfl]
  · have hsent : hasFlag .txSuccess s.res.sendResult = false := (hasFlag_eq_false_iff _ _).2 hflag
    rw [exec_running h, move, doMove, if_neg (by simp [hsent]), h.return_eq]
  · have hsent : hasFlag .txSuccess s.res.sendResult = true := (hasFlag_iff _ _).2 hflag
    rw [exec_running h, move, doMove, if_pos hsent, h.call_eq _ _ rfl]

/-- Settles O45: the three checks in order, each with the flags it adds (R220 to R222). -/
theorem doCommandChecksTheResponse : Obligations.DoCommandChecksTheResponse := by
  intro s i c0 c1 plen r h verdict response
  have hexec {x : FlagSet} {status : Byte}
      (hv : doVerdict s.res.result s =
        { s with res := { s.res with result := x, cmdStatus := status } }) :
      exec i s = verdict x status := by
    rw [exec_running h, move, doMove, hv,
      h.finish_eq (t := { s with res := { s.res with result := x, cmdStatus := status } }) rfl rfl]
  have hflag : s.res.result &&& 0x004#9 = 0 ↔ hasFlag .rxSuccess s.res.result = false :=
    (hasFlag_eq_false_iff .rxSuccess s.res.result).symm
  have hresp : response ↔ isResponse s.rxbuf = true := (isResponse_iff _).symm
  rw [Ne, hflag, Bool.not_eq_false]
  refine ⟨fun hrx => hexec ?_, fun hrx hno => hexec ?_, fun hrx hyes hst => hexec ?_,
    fun hrx hyes hst => hexec ?_⟩
  · rw [doVerdict, if_pos (by simp [hrx])]
    rfl
  · have hno' : isResponse s.rxbuf = false := by rwa [hresp, Bool.not_eq_true] at hno
    rw [doVerdict, if_neg (by simp [hrx]), if_pos (by simp [hno'])]
    simp [setResult, withFlag, flagCode, BitVec.or_assoc]
  · rw [doVerdict, if_neg (by simp [hrx]), if_neg (by simp [hresp.1 hyes]), if_pos (by exact hst)]
    simp [setResult, latchStatus, withFlag, flagCode, BitVec.or_assoc, responseStatus,
      Config.respStatusOffset]
  · have hst' : responseStatus s.rxbuf = Config.statusOk := hst
    rw [doVerdict, if_neg (by simp [hrx]), if_neg (by simp [hresp.1 hyes]), if_neg (by simp [hst'])]
    simp [setResult, latchStatus, withFlag, flagCode, hst', Config.statusOk]

/-! ## Power, attention, reset pulse -/

/-- Settles O46: one micro-step, which drives the line and returns (R230). -/
theorem setPowerDrivesTheLine : Obligations.SetPowerDrivesTheLine := by
  intro s st hb
  exact hostOp_idle (.setPower st) hb

/-- Settles O48: the limit, else one sample, which is the operand or not (R232, R234). -/
theorem waitPowerPollsUntilTheOperand : Obligations.WaitPowerPollsUntilTheOperand := by
  intro s i st n r h ended again
  have hops := h.2.1
  have hbusy := h.busy_finish
  rw [exec_running h, move]
  refine ⟨fun hlim => ?_, fun hlim hn => ⟨fun p l hin => ⟨fun hp => ?_, fun hp => ?_⟩,
    fun hin => ⟨powerOfBit (Config.freeLevel s.draws), fun hp => ?_, fun hp => ?_⟩⟩⟩
  · rw [waitPowerMove, if_pos ((pollLimitReached_iff _ _).2 hlim), giveUp, h.return_eq]
    rfl
  all_goals
    rw [waitPowerMove, if_neg (by rwa [pollLimitReached_iff]), calling_answered hn]
    simp [nextStatus, countCall, hin, hp, waitDone, readStatusLine, dropStatus, emit, setResult, finish,
      goto, hops, hbusy, ended, again]

/-- Settles O49: the limit, else one sample, which is 1 or 0 (R234, R235). -/
theorem waitAttnPollsUntilAsserted : Obligations.WaitAttnPollsUntilAsserted := by
  intro s i n r h ended again
  have hops := h.2.1
  have hbusy := h.busy_finish
  rw [exec_running h, move]
  refine ⟨fun hlim => ?_, fun hlim hn => ⟨fun a l hin => ⟨fun ha => ?_, fun ha => ?_⟩,
    fun hin => ⟨Config.freeLevel s.draws, fun ha => ?_, fun ha => ?_⟩⟩⟩
  · rw [waitAttnMove, if_pos ((pollLimitReached_iff _ _).2 hlim), giveUp, h.return_eq]
    rfl
  all_goals
    rw [waitAttnMove, if_neg (by rwa [pollLimitReached_iff]), calling_answered hn]
    simp [nextAttn, countCall, hin, ha, waitDone, readAttentionLine, dropAttn, emit, setResult, finish,
      goto, hops, hbusy, ended, again]

/-- Settles O50, by induction on the samples: an unmatched one leaves the wait where it is, one count
further (R233, R236). -/
theorem unmatchedWaitStaysBusy : Obligations.UnmatchedWaitStaysBusy := by
  constructor
  · intro s i st n r l rest h hrun hlim hn hhost hin hno
    obtain ⟨hb, ho, -⟩ := hrun
    have hleaves : Leaves _ _ _ := hhost
    clear hhost
    induction l generalizing s n with
    | nil =>
      rw [List.length_nil, steps]
      simp [Leaves.host_zero hleaves, ← ho, show rest = s.world.statusIn from hin.symm]
    | cons p l ih =>
      obtain ⟨hp, hl⟩ := not_or.1 (mt List.mem_cons.2 hno)
      obtain ⟨host, hquiet, hleaves'⟩ := Leaves.step hleaves
      have hstep := hquiet.step_move hb ho (by simp)
      rw [move, waitPowerMove_unmatched (s := { s with world := { s.world with host := host } })
        hlim hn hin (Ne.symm hp)] at hstep
      have hrest := ih (s := { s with
        world := { s.world with
          host := host, statusIn := l ++ rest, events := .readStatus p :: s.world.events }
        ops := .waitPower st (n + 1) :: s.ops.tail }) (n + 1) hlim hn rfl hl hb (by simp [ho]) hleaves'
      refine (steps_next hstep).trans (hrest.trans ?_)
      simp [Nat.add_comm, Nat.add_left_comm]
  · intro s i n r l rest h hrun hlim hn hhost hin hno
    obtain ⟨hb, ho, -⟩ := hrun
    have hleaves : Leaves _ _ _ := hhost
    clear hhost
    induction l generalizing s n with
    | nil =>
      rw [List.length_nil, steps]
      simp [Leaves.host_zero hleaves, ← ho, show rest = s.world.attnIn from hin.symm]
    | cons a l ih =>
      obtain ⟨ha, hl⟩ := not_or.1 (mt List.mem_cons.2 hno)
      obtain rfl : a = false := by simpa using Ne.symm ha
      obtain ⟨host, hquiet, hleaves'⟩ := Leaves.step hleaves
      have hstep := hquiet.step_move hb ho (by simp)
      rw [move, waitAttnMove_unmatched (s := { s with world := { s.world with host := host } })
        hlim hn hin] at hstep
      have hrest := ih (s := { s with
        world := { s.world with
          host := host, attnIn := l ++ rest, events := .readAttn false :: s.world.events }
        ops := .waitAttn (n + 1) :: s.ops.tail }) (n + 1) hlim hn rfl hl hb (by simp [ho]) hleaves'
      refine (steps_next hstep).trans (hrest.trans ?_)
      simp [Nat.add_comm, Nat.add_left_comm]

/-- Settles O51: assert, delay, deassert, as micro-steps and as the host's run of three steps (R250). -/
theorem resetPulseMakesThreeEvents : Obligations.ResetPulseMakesThreeEvents := by
  refine ⟨fun s i r => ⟨fun h => ?_, fun h hn => ?_, fun h => ?_⟩, fun s w hb hh hn hw => ?_⟩
  · rw [exec_running h, move, pulseMove, h.goto_eq (t := resetAssert s) _ rfl]
    rfl
  · rw [exec_running h, move, pulseMove, calling_answered hn, h.goto_eq (t := delay _ (countCall s)) _ rfl]
    rfl
  · rw [exec_running h, move, pulseMove,
      h.finish_eq (t := setResult 0 (resetDeassert s)) rfl rfl]
    rfl
  · have hdec : decodeRequest w = .resetPulse := decodeRequest_of_decode hw
    have hassert : step s = .next (assertedState s) := by
      rw [step_request hb hh, hdec]
      exact hostOp_idle (s := popHost s) (.pulse .start) hb
    have hpop : (popHost s).world.host = [] := by simp [popHost, hh]
    have hhold := HostQuiet.step_move (.inl ⟨hpop, rfl⟩) (s := assertedState s) rfl rfl (by simp)
    rw [move, pulseMove, calling_none (by exact hn)] at hhold
    have hrelease := HostQuiet.step_move (.inl ⟨hpop, rfl⟩)
      (s := goto (.pulse .release) (delay s.params.tResetUs (assertedState s))) rfl rfl (by simp)
    refine (steps_next hassert).trans ((steps_next hhold).trans ((steps_next hrelease).trans ?_))
    simp [steps, pulseMove, assertedState, finish, goto, delay, emit, resetAssert, resetDeassert, popHost, hh]

/-! ## The configuration sequencer -/

/-- Settles O52: clear once, then per attempt count, pulse and receive (R262). -/
theorem configureAttempt : Obligations.ConfigureAttempt := by
  intro s i r
  refine ⟨fun h => ?_, fun h => ?_, fun h => ?_⟩
  · rw [exec_running h, move, confMove, h.goto_eq (t := confClear s) _ rfl]
    rfl
  · have hcount : satInc s.seq.seqAttempts =
        BitVec.ofNat 16 (min (s.seq.seqAttempts.toNat + 1) 65535) := by
      rw [← satInc_toNat, BitVec.ofNat_toNat, BitVec.setWidth_eq]
    rw [exec_running h, move, confMove, confAttempt, h.call_eq (t := { s with
      seq := { s.seq with seqs := .reset, seqAttempts := satInc s.seq.seqAttempts } }) _ _ rfl, hcount]
  · rw [exec_running h, move, confMove, h.call_eq (t := setSeqs .harvest s) _ _ rfl]
    rfl

/-- Settles O53: the harvest gate (`harvestGood_iff`) and the command gate, entry by entry (R262, R263). -/
theorem configureGates : Obligations.ConfigureGates := by
  intro s i r
  refine ⟨fun h => ?_, fun h => ⟨fun hres => ?_, fun hres hidx => ?_, fun hres hidx => ?_,
    fun hres hidx => ?_⟩⟩
  · intro good
    refine ⟨fun hgood => ?_, fun hbad => ?_⟩
    · have hgate : harvestGood s = true := (harvestGood_iff s).2 hgood
      rw [exec_running h, move, confMove, confHarvested, if_pos hgate]
      simp [goto, h.2.1]
    · have hgate : ¬ harvestGood s = true := mt (harvestGood_iff s).1 hbad
      rw [exec_running h, move, confMove, confHarvested, if_neg hgate, h.goto_eq (t := s) _ rfl]
  · rw [exec_running h, move, confMove, confCommanded, if_neg (by exact hres), h.goto_eq (t := s) _ rfl]
  · rw [exec_running h, move, confMove, confCommanded, if_pos (by exact hres), hidx]
    simp [nextIdx, goto, h.2.1]
  · rw [exec_running h, move, confMove, confCommanded, if_pos (by exact hres), hidx]
    simp [nextIdx, goto, h.2.1]
  · rw [exec_running h, move, confMove, confCommanded, if_pos (by exact hres), hidx]
    simp [nextIdx, finish, h.2.1, h.busy_finish]

/-- Settles O54: the parameter bytes by `byteAt_memPutAll_inside` and `byteAt_memPutAll_outside`; an entry
over R9's bound faults. -/
theorem configureIssuesTheEntry : Obligations.ConfigureIssuesTheEntry := by
  intro s i r h e
  refine ⟨fun hlen => ⟨call (.doCmd e.c0 e.c1 (BitVec.ofNat 8 e.params.length) .start)
    (.configure .commanded) { s with txbuf := writeParams e.params s.txbuf }, ?_, ?_, fun j hj => ?_,
    fun j hj => ?_⟩, fun hlen => ?_⟩
  · rw [exec_running h, move, confMove, confCommand, if_pos (by exact hlen)]
    rfl
  · simp [call, writeParams, h.2.1]
  · exact byteAt_memPutAll_inside _ _ _ _ _ hj
  · exact byteAt_memPutAll_outside _ _ _ hj
  · rw [exec_running h, move, confMove, confCommand, if_neg (by exact Nat.not_le.2 hlen)]

end
section
/-! What a step can be (spec/00_scope.md section 2): every step that answers a next state is an action of
the host, a micro-step of the innermost activation, or micro-steps inside a transaction. -/

namespace Sys2Proof.Machine

open Sys2Proof

variable {s t u : State} {a : Act} {p q : XferPos} {r : List Act}

/-! ## The host's turn, the request, the fetched frame -/

/-- The host's own actions reset the block, write the image of an idle block's TXBUF, or leave the block
alone. -/
theorem hostTurn_cases (h : hostTurn s = some (.next t)) :
    (∃ l, s.world.host = .reset :: l ∧ t = blockReset (popHost s)) ∨
    (∃ w, t = { s with world := w }) ∨
    (s.busy = false ∧ ∃ n bytes w, n + bytes.length ≤ imageSize ∧
      t = { s with txbuf := memWrite s.txbuf n bytes, world := w }) := by
  cases hw : s.world.host with
  | nil => simp [hostTurn_none hw] at h
  | cons act l =>
    cases act with
    | reset =>
      simp only [hostTurn, hw, Option.some.injEq, Host.Outcome.next.injEq] at h
      exact .inl ⟨l, rfl, h.symm⟩
    | pass => simp [hostTurn_pass hw] at h
    | request w => simp [hostTurn, hw] at h
    | awaitIdle =>
      simp only [hostTurn, hw, Option.ite_none_left_eq_some, Option.some.injEq,
        Host.Outcome.next.injEq] at h
      exact .inr (.inl ⟨_, h.2.symm⟩)
    | write n bytes =>
      simp only [hostTurn, hw, Option.some.injEq, hostWrite] at h
      split_ifs at h with hb hn
      cases h
      exact .inr (.inr ⟨by simpa using hb, n, bytes, _, hn, rfl⟩)
    | read b n k =>
      simp only [hostTurn, hw, Option.some.injEq, hostRead] at h
      split_ifs at h
      cases h
      exact .inr (.inl ⟨_, rfl⟩)
    | readReg x =>
      simp only [hostTurn, hw, Option.some.injEq, hostReadReg] at h
      split_ifs at h
      cases h
      exact .inr (.inl ⟨_, rfl⟩)

/-- A request in BUSY = 0 is refused, or makes the first micro-step of a host operation. -/
theorem exec_request_cases (w : ReqWord) (hb : s.busy = false) :
    (∃ f, exec (decodeRequest w) s = .refused f) ∨
      ∃ a : Act, a.isFirst = true ∧
        exec (decodeRequest w) s = move a { s with busy := true, ops := [a] } := by
  rcases decodeRequest_cases w with ⟨a, ha⟩ | hr
  · obtain ⟨b, -, hfirst, hexec⟩ := exec_idle a hb
    exact .inr ⟨b, hfirst, by rw [ha, hexec]⟩
  · exact .inl ⟨.reservedOperation, by simp [hr, reserved, hb]⟩

/-- A step taken while an operation runs and the host makes no access: a micro-step, or exchange steps with
a frame at the front of the wire. -/
theorem step_running_cases (hb : s.busy = true) (ho : s.ops = a :: r) (hh : hostTurn s = none) :
    step s = move a (dropPass s) ∨
    (a = .xfer .loop ∧ loopCond s = true ∧ s.world.grain = .frame ∧
      (∃ i rest, decodeFrame s.world.inbound = .ok (i, rest)) ∧
      ∃ n, 0 < n ∧ step s = exchangeRounds n (dropPass s)) := by
  have hres : resume (dropPass s) = move a (dropPass s) := by simp [resume, ho]
  rcases step_busy hb (by simp [ho]) hh with hstep | ⟨n, hhead, hc, hg, hn, hstep⟩
  · exact .inl (hstep.trans hres)
  · obtain rfl : a = .xfer .loop := by simpa [ho] using hhead
    cases hd : decodeFrame s.world.inbound with
    | ok x => exact .inr ⟨rfl, hc, hg, ⟨x.1, x.2, rfl⟩, n, hn, hstep⟩
    | error e =>
      have hinbound : (dropPass s).world.inbound = s.world.inbound := by
        unfold dropPass
        split <;> rfl
      have hnone : fetchFrame (dropPass s) = none := by
        simp only [fetchFrame, hinbound, hd]
        split <;> rfl
      have hc' : loopCond (dropPass s) = true := by simpa [loopCond] using hc
      have hfetch : fetch s = some (txInstr s.tx.txs, dropPass s) := by
        simp [fetch, hb, fetchBusy, ho, hc', hnone]
      left
      have htx := exec_txInstr (dropPass s)
      rw [dropPass_tx] at htx
      simp only [step, hh, hfetch, htx, move, xferMove, xferLoop, hc', if_true]

/-- What a step from `s` that answers `t` can be. -/
inductive StepCase (s t : State) : Prop
  | reset (l : List HostAct) (hh : s.world.host = .reset :: l) (ht : t = blockReset (popHost s))
  | world (w : World) (ht : t = { s with world := w })
  | write (n : Nat) (bytes : List Byte) (w : World) (hb : s.busy = false)
      (hn : n + bytes.length ≤ imageSize)
      (ht : t = { s with txbuf := memWrite s.txbuf n bytes, world := w })
  | request (a : Act) (w : World) (hb : s.busy = false) (ha : a.isFirst = true)
      (hm : move a { s with world := w, busy := true, ops := [a] } = .next t)
  | micro (a : Act) (r : List Act) (w : World) (hb : s.busy = true) (ho : s.ops = a :: r)
      (hm : move a { s with world := w } = .next t)
  | frame (n : Nat) (r : List Act) (w : World) (hb : s.busy = true) (ho : s.ops = .xfer .loop :: r)
      (hc : loopCond s = true) (hg : s.world.grain = .frame)
      (hd : ∃ i rest, decodeFrame s.world.inbound = .ok (i, rest))
      (hm : exchangeRounds n { s with world := w } = .next t)
  | empty (w : World) (hb : s.busy = true) (ho : s.ops = []) (ht : t = { s with world := w, busy := false })

theorem step_next_cases (h : step s = .next t) : StepCase s t := by
  cases hturn : hostTurn s with
  | some o =>
    obtain rfl : o = .next t := by simpa [step, hturn] using h
    rcases hostTurn_cases hturn with ⟨l, hh, ht⟩ | ⟨w, ht⟩ | ⟨hb, n, bytes, w, hn, ht⟩
    · exact .reset l hh ht
    · exact .world w ht
    · exact .write n bytes w hb hn ht
  | none =>
    obtain ⟨l, hdrop⟩ := dropPass_frame s
    rcases step_cases s with ⟨o, hsome, -⟩ | ⟨hb, q, l, -, hstep⟩ | ⟨hb, ho, hstep⟩ |
      ⟨hb, n, hhead, -, -, -⟩ | ⟨hempty, hstep⟩
    · simp [hturn] at hsome
    · rw [hstep] at h
      rcases exec_request_cases (s := popHost s) q hb with ⟨f, hf⟩ | ⟨a, ha, hexec⟩
      · simp [hf] at h
      · exact .request a _ hb ha (hexec ▸ h)
    · obtain ⟨a, r, ho⟩ := List.exists_cons_of_ne_nil ho
      have hm : move a (dropPass s) = .next t := by rw [← h, hstep, resume, dropPass_ops, ho]
      exact .micro a r _ hb ho (hdrop ▸ hm)
    · obtain ⟨r, ho⟩ : ∃ r, s.ops = .xfer .loop :: r := by
        cases ho : s.ops <;> simp_all
      rcases step_running_cases hb ho hturn with hmove | ⟨-, hc, hg, hd, n, -, hrounds⟩
      · exact .micro _ r _ hb ho (by rw [← h, hmove, hdrop])
      · exact .frame n r _ hb ho hc hg hd (by rw [← h, hrounds, hdrop])
    · rw [hstep, hdrop] at h
      cases h
      cases hb : s.busy with
      | true => exact .empty _ hb (hempty hb) rfl
      | false => exact .world _ (by rw [← hb])

/-! ## Micro-steps inside a transaction -/

/-- A micro-step of XFER that stays between `select(1)` and `select(0)`; the activations `r` wait. -/
def Inner (r : List Act) (s t : State) : Prop :=
  s.busy = true ∧ ∃ p, selected p = true ∧ s.ops = .xfer p :: r ∧ (p = .loop → loopCond s = true) ∧
    xferMove p s = .next t

/-- What a micro-step inside a transaction does, place by place (spec/41_transaction.md R176). -/
inductive InnerCase (r : List Act) (s t : State) : Prop
  | hung (p : XferPos) (hp : selected p = true) (ho : s.ops = .xfer p :: r) (ht : t = s)
  | waited (p : XferPos) (hp : p = .selDelay ∨ p = .byteDelay) (w : World) (ho : s.ops = .xfer p :: r)
      (ht : t = { s with world := w, ops := .xfer .loop :: r })
  | sent (ho : s.ops = .xfer .loop :: r) (hc : loopCond s = true) (hin : TxInside s.tx)
      (ht : t = sentState s)
  | exchanged (b : Byte) (w : World) (d : Nat) (ho : s.ops = .xfer .exch :: r)
      (ht : t = { s with line := { s.line with xchIn := some b }, world := w, draws := d
                         ops := .xfer .rx :: r })
  | taken (ho : s.ops = .xfer .rx :: r) (ht : t = takenState (inByte s) (takeIn s))
  | retried (w : Bool) (ho : s.ops = .xfer (.after w) :: r)
      (ht : t = { s with
        xf := { s.xf with retry := if w && decide (s.rx.rxs = .idle) then s.xf.retry - 1 else s.xf.retry }
        ops := .xfer .byteDelay :: r })

/-- A transmit state-step that answers did not read outside the array. -/
theorem txStep_inside (h : txStep s = .next t) : TxInside s.tx := by
  intro hd
  by_contra hlt
  simp [txStep, hd, txData, hlt] at h

theorem xferLoop_sent (ho : s.ops = .xfer .loop :: r) (hc : loopCond s = true)
    (h : xferLoop s = .next t) : TxInside s.tx ∧ t = sentState s := by
  have hin : TxInside s.tx := by
    rw [xferLoop, if_pos hc] at h
    obtain ⟨u, hu, -⟩ := andThen_eq_next.1 h
    exact txStep_inside hu
  rw [xferLoop_on ho hc hin] at h
  cases h
  exact ⟨hin, rfl⟩

/-- The receive state-step on what `inByte` gives. -/
theorem xferRx_eq (ho : s.ops = .xfer .rx :: r) : xferRx s = takenState (inByte s) (takeIn s) := by
  have hnone : (takeIn s).line.xchIn = none := by
    unfold takeIn
    split
    · rfl
    · assumption
  rw [xferRx, leaveRx_at_rx (r := r) (by rw [rxStep_ops, takeIn_ops, ho]), rxStep_eq]
  have hline : (takeIn s).line = { (takeIn s).line with xchIn := none } := by rw [← hnone]
  simp only [takenState, takeIn_ops, ho, List.tail_cons, takeIn_rx, ← hline]

theorem retryUpdate_retry (w : Bool) (s : State) : (retryUpdate w s).xf.retry =
    if w && decide (s.rx.rxs = .idle) then s.xf.retry - 1 else s.xf.retry := by
  unfold retryUpdate
  cases w && decide (s.rx.rxs = .idle) with
  | false => rfl
  | true =>
    by_cases hz : 0 < s.xf.retry
    · simp [hz]
    · simp [hz]
      omega

theorem calling_cases {f : State → State} (h : calling f s = t) : t = s ∨ t = f (countCall s) := by
  unfold calling at h
  split at h
  · exact .inl h.symm
  · exact .inr h.symm

theorem Inner.cases (h : Inner r s t) : InnerCase r s t := by
  obtain ⟨hb, p, hp, ho, hc, hm⟩ := h
  cases p with
  | start | finish | raise f | ret => cases hp
  | selDelay =>
    rcases calling_cases (Host.Outcome.next.inj hm) with ht | ht
    · exact .hung _ hp ho ht
    · exact .waited _ (.inl rfl) (delay s.params.tSelectUs (countCall s)).world ho
        (by rw [ht]; simp [goto, delay, emit, countCall, ho])
  | loop =>
    obtain ⟨hin, ht⟩ := xferLoop_sent ho (hc rfl) hm
    exact .sent ho (hc rfl) hin ht
  | exch =>
    rcases calling_cases (Host.Outcome.next.inj hm) with ht | ht
    · exact .hung _ hp ho ht
    · obtain ⟨w, d, hx⟩ := exchange_frame (countCall s)
      exact .exchanged (nextByte (countCall s)) w d ho (by rw [ht, hx]; simp [goto, countCall, ho])
  | rx =>
    cases hm
    exact .taken ho (xferRx_eq ho)
  | after w =>
    cases hm
    refine .retried w ho ?_
    rw [xferAfter, retryUpdate_frame, retryUpdate_retry]
    simp [goto, ho]
  | byteDelay =>
    rcases calling_cases (Host.Outcome.next.inj hm) with ht | ht
    · exact .hung _ hp ho ht
    · exact .waited _ (.inr rfl) (delay s.params.tByteUs (countCall s)).world ho
        (by rw [ht]; simp [goto, delay, emit, countCall, ho])

/-- A micro-step inside a transaction leaves the block inside it. -/
theorem Inner.stays (h : Inner r s t) :
    t.busy = true ∧ ∃ q, selected q = true ∧ t.ops = .xfer q :: r := by
  have hb := h.1
  cases h.cases with
  | hung p hp ho ht => exact ht ▸ ⟨hb, p, hp, ho⟩
  | waited p hp w ho ht => exact ht ▸ ⟨hb, .loop, rfl, rfl⟩
  | sent ho hc hin ht => exact ht ▸ ⟨hb, .exch, rfl, by simp [sentState, ho]⟩
  | exchanged b w d ho ht => exact ht ▸ ⟨hb, .rx, rfl, rfl⟩
  | taken ho ht => exact ht ▸ ⟨by simp [takenState, hb], .after (decide (s.rx.rxs = .idle)), rfl,
      by simp [takenState, ho]⟩
  | retried w ho ht => exact ht ▸ ⟨hb, .byteDelay, rfl, rfl⟩

/-- A whole exchange step is a run of micro-steps inside the transaction, at least one. -/
theorem exchangeRound_inner (hb : s.busy = true) (ho : s.ops = .xfer .loop :: r)
    (hc : loopCond s = true) (h : exchangeRound s = .next t) :
    Relation.TransGen (Inner r) s t := by
  rw [exchangeRound, if_pos (by rw [atLoop_iff.2 ⟨hb, r, ho⟩, hc]; rfl)] at h
  obtain ⟨u, hloop, hrest⟩ := andThen_eq_next.1 h
  have hfirst : Inner r s u := ⟨hb, .loop, rfl, ho, fun _ => hc, hloop⟩
  obtain ⟨-, hu⟩ := xferLoop_sent ho hc hloop
  have huops : u.ops = .xfer .exch :: r := by simp [hu, sentState, ho]
  split at hrest
  · cases hrest
    exact .single hfirst
  · rename_i hanswer
    cases hrest
    obtain ⟨w, d, hx⟩ := exchange_frame (countCall u)
    have hexch : xferExch u = goto (.xfer .rx) (exchange (countCall u)) := calling_answered hanswer
    have hxops : (xferExch u).ops = .xfer .rx :: r := by
      rw [hexch, hx]
      simp [goto, countCall, huops]
    have hxbusy : (xferExch u).busy = true := by rw [hexch, hx]; exact hfirst.stays.1
    have hxrx : (xferExch u).rx = u.rx := by rw [hexch, hx]; rfl
    have hrx := xferRx_eq hxops
    have hrxops : (xferRx (xferExch u)).ops = .xfer (.after (decide (u.rx.rxs = .idle))) :: r := by
      simp [hrx, takenState, hxops, hxrx]
    have hrxbusy : (xferRx (xferExch u)).busy = true := by simp [hrx, takenState, hxbusy]
    obtain ⟨habusy, -, haops⟩ := xferAfter_keeps (decide (u.rx.rxs = .idle)) (xferRx (xferExch u))
    have hexchanged : Inner r u (xferExch u) := ⟨hfirst.stays.1, .exch, rfl, huops, nofun, rfl⟩
    have htaken : Inner r (xferExch u) (xferRx (xferExch u)) := ⟨hxbusy, .rx, rfl, hxops, nofun, rfl⟩
    have hretried : Inner r (xferRx (xferExch u))
        (xferAfter (decide (u.rx.rxs = .idle)) (xferRx (xferExch u))) :=
      ⟨hrxbusy, .after _, rfl, hrxops, nofun, rfl⟩
    exact .tail (.tail (.tail (.tail (.single hfirst) hexchanged) htaken) hretried)
      ⟨habusy.trans hrxbusy, .byteDelay, rfl, by rw [haops, hrxops, List.tail_cons], nofun, rfl⟩

/-- A run of whole exchange steps is a run of micro-steps inside the transaction. -/
theorem exchangeRounds_inner {n : Nat} (hb : s.busy = true) (hp : selected p = true)
    (ho : s.ops = .xfer p :: r) (h : exchangeRounds n s = .next t) :
    Relation.ReflTransGen (Inner r) s t := by
  induction n generalizing s p with
  | zero =>
    cases h
    exact .refl
  | succ n ih =>
    obtain ⟨u, hround, hrest⟩ := andThen_eq_next.1 h
    by_cases hon : (atLoop s && loopCond s) = true
    · obtain ⟨hat, hc⟩ := (Bool.and_eq_true ..).mp hon
      obtain ⟨-, r', ho'⟩ := atLoop_iff.1 hat
      obtain ⟨rfl, rfl⟩ : p = .loop ∧ r = r' := by simpa [ho] using ho'
      have hrun := exchangeRound_inner hb ho hc hround
      obtain ⟨v, -, hlast⟩ := Relation.TransGen.tail'_iff.1 hrun
      obtain ⟨hub, q, hq, huo⟩ := hlast.stays
      exact hrun.to_reflTransGen.trans (ih hub hq huo hrest)
    · rw [exchangeRound_idle (by simpa using hon)] at hround
      cases hround
      exact ih hb hp ho hrest

/-- What holds of a state inside a transaction and is kept by the micro-steps inside it holds behind a run
of whole exchange steps. -/
theorem exchangeRounds_keeps {n : Nat} {P : State → Prop} (hkeep : ∀ u v, P u → Inner r u v → P v)
    (hb : s.busy = true) (ho : s.ops = .xfer .loop :: r) (hs : P s)
    (h : exchangeRounds n s = .next t) : P t := by
  have hrun := exchangeRounds_inner hb rfl ho h
  clear h
  induction hrun with
  | refl => exact hs
  | tail _ hstep ih => exact hkeep _ _ ih hstep

end Sys2Proof.Machine

end
section
/-! The invariant, place by place (spec/10_state.md, spec/41_transaction.md R184): what it says outside a
transaction, inside one, and with no operation in progress; and that every step keeps it. -/

namespace Sys2Proof.Machine

open Sys2Proof

variable {s t u : State} {a b : Act} {p q : XferPos} {r : List Act}

/-! ## The invariant outside and inside a transaction -/

/-- A payload memory has the canonical form and lists only addresses that exist. -/
def BufferOk (m : Memory) : Prop := memWf m = true ∧ memInCap m = true

/-- What the invariant says of the buffers and constants, wherever the block stands. -/
structure Sound (s : State) : Prop where
  txbuf : BufferOk s.txbuf.payload
  rxbuf : BufferOk s.rxbuf.payload
  rxa : BufferOk s.rxa.payload
  fits : RxbufOk s
  params : ParamsOk s

/-- The registers outside a transaction: SELECT 0, no byte on XCH_IN, both machines idle (R184). -/
structure Still (s : State) : Prop extends Sound s where
  select : s.line.select = false
  xchIn : s.line.xchIn = none
  tx : s.tx.txs = .idle
  rx : s.rx.rxs = .idle

/-- The receive machine is in order: while it receives, RETRY is 0 and RXSEEN is 1 (R150), RXLONG says
whether RXN is at or above CAP once RXN is known (R154), and RXIDX is below RXN while data is due (R156). -/
def RxReady (q : RxRegs) (x : XferRegs) : Prop :=
  (q.rxs ≠ .idle → x.retry = 0 ∧ x.rxseen = true) ∧
  ((q.rxs = .lenHi ∨ q.rxs = .lenLo) → q.rxlong = false) ∧
  ((q.rxs = .ftype ∨ q.rxs = .data ∨ q.rxs = .cksum) → q.rxlong = tooLong q.rxn) ∧
  (q.rxs = .data → q.rxidx.toNat < q.rxn.toNat)

/-- The registers inside a transaction at place `p`. -/
structure Engaged (p : XferPos) (s : State) : Prop extends Sound s where
  select : s.line.select = true
  resetOut : s.line.resetOut = false
  xchIn : s.line.xchIn.isSome = decide (p = .rx)
  tx : TxReady s.txbuf s.tx
  rx : RxReady s.rx s.xf
  listens : s.xf.rxonly = true → s.tx.txs = .idle
  sends : s.xf.rxonly = false → s.xf.retry = 0

theorem Sound.of_eq (h : Sound s) (htx : BufferOk t.txbuf.payload) (hrx : t.rxbuf = s.rxbuf)
    (hrxa : t.rxa = s.rxa) (hparams : t.params = s.params) : Sound t :=
  ⟨htx, hrx ▸ h.rxbuf, hrxa ▸ h.rxa, by rw [RxbufOk, hrx]; exact h.fits,
    by rw [ParamsOk, hparams]; exact h.params⟩

theorem Still.of_eq (h : Still s) (htx : BufferOk t.txbuf.payload)
    (hregs : (t.rxbuf, t.rxa, t.params, t.line.select, t.line.xchIn, t.tx, t.rx) =
      (s.rxbuf, s.rxa, s.params, s.line.select, s.line.xchIn, s.tx, s.rx)) : Still t := by
  simp only [Prod.mk.injEq] at hregs
  obtain ⟨hrxbuf, hrxa, hparams, hsel, hin, htxs, hrxs⟩ := hregs
  exact ⟨h.toSound.of_eq htx hrxbuf hrxa hparams, hsel.trans h.select, hin.trans h.xchIn,
    by rw [htxs, h.tx], by rw [hrxs, h.rx]⟩

theorem RxReady.of_idle {q : RxRegs} {x : XferRegs} (h : q.rxs = .idle) : RxReady q x := by
  simp [RxReady, h]

theorem TxReady.of_idle {f : FrameBuffer} {q : TxRegs} (h : q.txs = .idle) : TxReady f q := by
  simp [TxReady, h]

theorem exchanged_head (ho : s.ops = a :: r) : exchanged s = decide (a = .xfer .rx) := by
  unfold exchanged
  rw [ho]
  cases a with
  | xfer p => cases p <;> rfl
  | _ => rfl

theorem opsOk_running (hb : s.busy = true) (ho : s.ops = a :: r) : OpsOk s ↔ r.all waiting = true := by
  simp [OpsOk, hb, ho]

theorem invariant_outside (hb : s.busy = true) (ho : s.ops = a :: r) (ha : a.outside = true) :
    Invariant s ↔ Still s ∧ s.line.resetOut = a.pulsing ∧ r.all waiting = true := by
  have htrans : inTransaction s = false := by simp [inTransaction_head hb ho, ha]
  have hexch : exchanged s = false := by
    rw [exchanged_head ho, decide_eq_false_iff_not]
    rintro rfl
    simp [Act.outside, selected] at ha
  constructor
  · rintro ⟨⟨htxm, hrxm, hrxam⟩, hfits, hops, ⟨hsel, hres, hin⟩, ⟨htx, -⟩, ⟨hrx, -⟩, -, hparams⟩
    refine ⟨⟨⟨htxm, hrxm, hrxam, hfits, hparams⟩, by rw [hsel, htrans], ?_, htx htrans, hrx htrans⟩,
      by rw [hres, inPulse_head hb ho], (opsOk_running hb ho).1 hops⟩
    simpa [hexch] using hin
  · rintro ⟨⟨⟨htxm, hrxm, hrxam, hfits, hparams⟩, hsel, hin, htx, hrx⟩, hres, hwait⟩
    exact ⟨⟨htxm, hrxm, hrxam⟩, hfits, (opsOk_running hb ho).2 hwait,
      ⟨by rw [hsel, htrans], by rw [hres, inPulse_head hb ho], by simp [hin, hexch]⟩,
      ⟨fun _ => htx, TxReady.of_idle htx⟩, ⟨fun _ => hrx, RxReady.of_idle hrx⟩,
      fun h => by simp [htrans] at h, hparams⟩

theorem invariant_inside (hb : s.busy = true) (ho : s.ops = .xfer p :: r) (hp : selected p = true) :
    Invariant s ↔ Engaged p s ∧ r.all waiting = true := by
  have htrans : inTransaction s = true := by simp [inTransaction_head hb ho, Act.outside, hp]
  have hpulse : inPulse s = false := inPulse_head hb ho
  have hexch : exchanged s = decide (p = .rx) := by rw [exchanged_head ho]; simp
  constructor
  · rintro ⟨⟨htxm, hrxm, hrxam⟩, hfits, hops, ⟨hsel, hres, hin⟩, ⟨-, htx⟩, ⟨-, hrx⟩, hmode, hparams⟩
    exact ⟨⟨⟨htxm, hrxm, hrxam, hfits, hparams⟩, by rw [hsel, htrans], by rw [hres, hpulse],
      by rw [hin, hexch], htx, hrx, (hmode htrans).1, (hmode htrans).2⟩, (opsOk_running hb ho).1 hops⟩
  · rintro ⟨⟨⟨htxm, hrxm, hrxam, hfits, hparams⟩, hsel, hres, hin, htx, hrx, hlisten, hsend⟩, hwait⟩
    exact ⟨⟨htxm, hrxm, hrxam⟩, hfits, (opsOk_running hb ho).2 hwait,
      ⟨by rw [hsel, htrans], by rw [hres, hpulse], by rw [hin, hexch]⟩,
      ⟨fun h => by simp [htrans] at h, htx⟩, ⟨fun h => by simp [htrans] at h, hrx⟩,
      fun _ => ⟨hlisten, hsend⟩, hparams⟩

theorem invariant_idle (hb : s.busy = false) :
    Invariant s ↔ Still s ∧ s.line.resetOut = false ∧ s.ops = [] := by
  have htrans : inTransaction s = false := by simp [inTransaction, hb]
  have hpulse : inPulse s = false := by simp [inPulse, hb]
  constructor
  · rintro ⟨⟨htxm, hrxm, hrxam⟩, hfits, ⟨hops, -⟩, ⟨hsel, hres, hin⟩, ⟨htx, -⟩, ⟨hrx, -⟩, -, hparams⟩
    have hnil : s.ops = [] := by simpa [hb] using hops
    have hexch : exchanged s = false := by simp [exchanged, hnil]
    refine ⟨⟨⟨htxm, hrxm, hrxam, hfits, hparams⟩, by rw [hsel, htrans], ?_, htx htrans, hrx htrans⟩,
      by rw [hres, hpulse], hnil⟩
    simpa [hexch] using hin
  · rintro ⟨⟨⟨htxm, hrxm, hrxam, hfits, hparams⟩, hsel, hin, htx, hrx⟩, hres, hnil⟩
    exact ⟨⟨htxm, hrxm, hrxam⟩, hfits, ⟨by simp [hb, hnil], by simp [hnil]⟩,
      ⟨by rw [hsel, htrans], by rw [hres, hpulse], by simp [hin, exchanged, hnil]⟩,
      ⟨fun _ => htx, TxReady.of_idle htx⟩, ⟨fun _ => hrx, RxReady.of_idle hrx⟩,
      fun h => by simp [htrans] at h, hparams⟩

/-! ## Micro-steps inside a transaction keep it -/

/-- A receive state-step keeps the receive machine in order. -/
theorem RxReady.next {q : RxRegs} {x y : XferRegs} (b : Byte) (h : RxReady q x)
    (hretry : y.retry = if rxOpens b q then 0 else x.retry)
    (hseen : y.rxseen = (x.rxseen || rxOpens b q)) : RxReady (rxNext b q) y := by
  obtain ⟨hbusy, hopen, hlong, hidx⟩ := h
  cases hq : q.rxs with
  | idle =>
    by_cases hb : b = Config.delim
    · simp [RxReady, rxNext, rxOpens, hq, hb, hretry, hseen]
    · exact RxReady.of_idle (by simp [rxNext, hq, hb])
  | lenHi =>
    obtain ⟨hzero, hone⟩ := hbusy (by simp [hq])
    have hl := hopen (.inl hq)
    simp [RxReady, rxNext, rxOpens, hq, hretry, hseen, hzero, hone, hl]
  | lenLo =>
    obtain ⟨hzero, hone⟩ := hbusy (by simp [hq])
    have hl := hopen (.inr hq)
    simp [RxReady, rxNext, rxOpens, hq, hretry, hseen, hzero, hone, hl]
  | ftype =>
    obtain ⟨hzero, hone⟩ := hbusy (by simp [hq])
    have hl := hlong (.inl hq)
    by_cases hn : 0 < q.rxn.toNat <;>
      simp [RxReady, rxNext, rxOpens, hq, hretry, hseen, hzero, hone, hl, hn]
  | data =>
    obtain ⟨hzero, hone⟩ := hbusy (by simp [hq])
    have hl := hlong (.inr (.inl hq))
    have hlt := hidx hq
    by_cases hlast : q.rxidx + 1#16 = q.rxn
    · simp [RxReady, rxNext, rxOpens, hq, hretry, hseen, hzero, hone, hl, hlast]
    · have hmore : (q.rxidx + 1#16).toNat < q.rxn.toNat := by bv_omega
      simpa [RxReady, rxNext, rxOpens, hq, hretry, hseen, hzero, hone, hl, hlast] using hmore
  | cksum => exact RxReady.of_idle (by simp [rxNext, hq])

/-- Only a frame below CAP is committed. -/
theorem RxReady.commit_fits {q : RxRegs} {x : XferRegs} {b : Byte} (h : RxReady q x)
    (hc : rxCommits b q = true) : q.rxn.toNat < Config.cap := by
  obtain ⟨-, -, hlong, -⟩ := h
  simp only [rxCommits, Bool.and_eq_true, decide_eq_true_eq, Bool.not_eq_true'] at hc
  obtain ⟨⟨hq, -⟩, hl⟩ := hc
  exact (tooLong_eq_false_iff _).1 ((hlong (.inr (.inr hq))).symm.trans hl)

theorem BufferOk.staged {x : Staging} (b : Byte) (q : RxRegs) (h : BufferOk x.payload) :
    BufferOk (rxStaged b q x).payload := by
  unfold rxStaged
  split
  · exact h
  · exact ⟨stage_wf h.1, stage_inCap h.2⟩
  all_goals exact h

theorem Sound.taken {b : Byte} (h : Sound s) (hrx : RxReady s.rx s.xf) : Sound (takenState b s) := by
  have hparams := h.params
  cases hc : rxCommits b s.rx with
  | false =>
    refine ⟨h.txbuf, ?_, h.rxa.staged b s.rx, ?_, hparams⟩
    · simpa [takenState, hc] using h.rxbuf
    · simpa [takenState, hc, RxbufOk] using h.fits
  | true =>
    have hlt := hrx.commit_fits hc
    refine ⟨h.txbuf, ?_, h.rxa.staged b s.rx, ?_, hparams⟩
    · simp only [takenState, hc, if_true, commit]
      exact ⟨copyPrefix_wf .., copyPrefix_inCap _ _ hlt.le⟩
    · simpa [takenState, hc, RxbufOk, commit] using hlt

/-- Inside a transaction every micro-step that stays inside keeps the registers in order. -/
theorem Engaged.inner (hs : ∀ p, s.ops = .xfer p :: r → Engaged p s) (h : Inner r s t)
    (ht : t.ops = .xfer q :: r) : Engaged q t := by
  cases h.cases with
  | hung p hp ho he =>
    subst he
    exact hs q ht
  | waited p hp w ho he =>
    subst he
    obtain rfl : XferPos.loop = q := by simpa using ht
    obtain ⟨hsound, hsel, hres, hin, htx, hrx, hl, hsd⟩ := hs p ho
    have hnone : s.line.xchIn.isSome = decide (XferPos.loop = .rx) := by
      rcases hp with rfl | rfl <;> simpa using hin
    exact ⟨hsound.of_eq hsound.txbuf rfl rfl rfl, hsel, hres, hnone, htx, hrx, hl, hsd⟩
  | sent ho hc hinside he =>
    subst he
    obtain rfl : XferPos.exch = q := by simpa [sentState, ho] using ht
    obtain ⟨hsound, hsel, hres, hin, htx, hrx, hl, hsd⟩ := hs _ ho
    exact ⟨hsound.of_eq hsound.txbuf rfl rfl rfl, hsel, hres, hin, htx.next, hrx, fun honly => by
      show (txNext s.txbuf s.tx).txs = .idle
      simp [txNext, hl honly], hsd⟩
  | exchanged b w d ho he =>
    subst he
    obtain rfl : XferPos.rx = q := by simpa using ht
    obtain ⟨hsound, hsel, hres, hin, htx, hrx, hl, hsd⟩ := hs _ ho
    exact ⟨hsound.of_eq hsound.txbuf rfl rfl rfl, hsel, hres, rfl, htx, hrx, hl, hsd⟩
  | taken ho he =>
    obtain ⟨hsound, hsel, hres, hin, htx, hrx, hl, hsd⟩ := hs _ ho
    obtain ⟨b, hb⟩ := Option.isSome_iff_exists.1 (hin.trans (by simp))
    rw [takeIn_some s hb] at he
    subst he
    obtain rfl : XferPos.after _ = q := by simpa [takenState, ho] using ht
    exact ⟨(hsound.of_eq hsound.txbuf rfl rfl rfl).taken hrx, hsel, hres,
      rfl, htx, hrx.next _ rfl rfl, hl, fun hm => by simp [takenState, hsd hm]⟩
  | retried w ho he =>
    subst he
    obtain rfl : XferPos.byteDelay = q := by simpa using ht
    obtain ⟨hsound, hsel, hres, hin, htx, hrx, hl, hsd⟩ := hs _ ho
    obtain ⟨hbusy, hrest⟩ := hrx
    exact ⟨hsound.of_eq hsound.txbuf rfl rfl rfl, hsel, hres, by simpa using hin, htx,
      ⟨fun hne => ⟨by simp [hne, (hbusy hne).1], (hbusy hne).2⟩, hrest⟩, hl, fun hm => by simp [hsd hm]⟩

theorem Inner.invariant (h : Inner r s t) (hs : Invariant s) : Invariant t := by
  obtain ⟨hb', q, hq, ho'⟩ := h.stays
  obtain ⟨hb, p, hp, ho, -⟩ := id h
  have hwait := ((invariant_inside hb ho hp).1 hs).2
  have hengaged (p' : XferPos) (hp' : s.ops = .xfer p' :: r) : Engaged p' s := by
    obtain rfl : p = p' := by simpa [ho] using hp'
    exact ((invariant_inside hb ho hp).1 hs).1
  exact (invariant_inside hb' ho' hq).2 ⟨Engaged.inner hengaged h ho', hwait⟩

/-! ## Micro-steps outside a transaction -/

/-- The innermost activation is `a`, and those of `r` wait for it. -/
def Stands (a : Act) (r : List Act) (s : State) : Prop :=
  s.busy = true ∧ s.ops = a :: r ∧ r.all waiting = true

/-- An activation with no transaction and no pulse under way. -/
def Act.fresh : Act → Bool
  | .xfer p => decide (p = .start)
  | .pulse p => decide (p = .start)
  | _ => true

theorem Act.fresh.outside (h : a.fresh = true) : a.outside = true ∧ a.pulsing = false := by
  cases a with
  | xfer p => obtain rfl : p = .start := by simpa [Act.fresh] using h
              exact ⟨rfl, rfl⟩
  | pulse p => obtain rfl : p = .start := by simpa [Act.fresh] using h
               exact ⟨rfl, rfl⟩
  | _ => exact ⟨rfl, rfl⟩

theorem fresh_of_waiting (h : waiting a = true) : a.fresh = true := by
  cases a with
  | xfer p => cases h
  | pulse p => cases h
  | _ => rfl

theorem fresh_of_isFirst (h : a.isFirst = true) : a.fresh = true := by
  cases a with
  | xfer p =>
    cases p with
    | start => rfl
    | _ => cases h
  | pulse p =>
    cases p with
    | start => rfl
    | _ => cases h
  | _ => rfl

/-- Control is at an activation with no transaction and no pulse under way, or at none. -/
structure Between (t : State) : Prop where
  busy : t.busy = !t.ops.isEmpty
  waits : t.ops.tail.all waiting = true
  head : ∀ a, t.ops.head? = some a → a.fresh = true

theorem Stands.between (h : Stands a r t) (ha : a.fresh = true) : Between t := by
  obtain ⟨hb, ho, hw⟩ := h
  refine ⟨by simp [hb, ho], by simpa [ho] using hw, fun b hb => ?_⟩
  obtain rfl : a = b := by simpa [ho] using hb
  exact ha

theorem Stands.goto (h : Stands a r t) : Stands b r (goto b t) := by
  obtain ⟨hb, ho, hw⟩ := h
  exact ⟨hb, by simp [Machine.goto, ho], hw⟩

theorem Stands.call {c : Act} (h : Stands a r t) (hc : waiting c = true) :
    Stands b (c :: r) (call b c t) := by
  obtain ⟨hb, ho, hw⟩ := h
  exact ⟨hb, by simp [Machine.call, ho], by simp [hc, hw]⟩

theorem Stands.finish (h : Stands a r t) : Between (finish t) := by
  obtain ⟨hb, ho, hw⟩ := h
  cases r with
  | nil =>
    exact ⟨by simp [Machine.finish, ho], by simp [Machine.finish, ho], by simp [Machine.finish, ho]⟩
  | cons c r =>
    simp only [List.all_cons, Bool.and_eq_true] at hw
    refine ⟨by simp [Machine.finish, ho, hb], by simpa [Machine.finish, ho] using hw.2, fun d hd => ?_⟩
    obtain rfl : c = d := by simpa [Machine.finish, ho] using hd
    exact fresh_of_waiting hw.1

/-- The registers the command layer never writes: those of a transaction, RESET_OUT and the constants. -/
def transactionRegs (s : State) :
    FrameBuffer × Staging × TxRegs × RxRegs × XferRegs × Config.Params × Bool × Option Byte × Bool :=
  (s.rxbuf, s.rxa, s.tx, s.rx, s.xf, s.params, s.line.select, s.line.xchIn, s.line.resetOut)

/-- From `s` to `t` no register of a transaction has changed, and TXBUF still lists only addresses that
exist. -/
structure Beside (s t : State) : Prop where
  txbuf : BufferOk s.txbuf.payload → BufferOk t.txbuf.payload
  regs : transactionRegs t = transactionRegs s

theorem Beside.xf (h : Beside s t) : t.xf = s.xf := congrArg (·.2.2.2.2.1) h.regs

theorem Beside.rxbuf (h : Beside s t) : t.rxbuf = s.rxbuf := congrArg (·.1) h.regs

theorem Beside.resetOut (h : Beside s t) : t.line.resetOut = s.line.resetOut :=
  congrArg (·.2.2.2.2.2.2.2.2) h.regs

theorem Still.beside (h : Still s) (hst : Beside s t) : Still t := by
  obtain ⟨htxbuf, hregs⟩ := hst
  refine h.of_eq (htxbuf h.txbuf) ?_
  simp only [transactionRegs, Prod.mk.injEq] at hregs
  simp [hregs]

/-- What a micro-step of the command layer does, `r` being the activations that wait: it writes no register
of a transaction and leaves control between transactions. -/
structure Commanded (r : List Act) (s t : State) : Prop extends Beside s t where
  between : r.all waiting = true → Between t

section

variable (hb : s.busy = true) (ho : s.ops = a :: r)
  (htx : BufferOk s.txbuf.payload → BufferOk t.txbuf.payload)
  (hregs : transactionRegs t = transactionRegs s) (hops : t.ops = s.ops) (hbusy : t.busy = s.busy)

include hb ho htx hregs hops hbusy

theorem goto_commanded (hfresh : b.fresh = true) : Commanded r s (goto b t) where
  txbuf := htx
  regs := hregs
  between hw := (Stands.goto (a := a) ⟨hbusy.trans hb, hops.trans ho, hw⟩).between hfresh

theorem call_commanded {c : Act} (hfresh : b.fresh = true) (hc : waiting c = true) :
    Commanded r s (call b c t) where
  txbuf := htx
  regs := hregs
  between hw := (Stands.call (a := a) ⟨hbusy.trans hb, hops.trans ho, hw⟩ hc).between hfresh

theorem finish_commanded : Commanded r s (finish t) where
  txbuf := htx
  regs := hregs
  between hw := Stands.finish (a := a) ⟨hbusy.trans hb, hops.trans ho, hw⟩

omit htx hregs hops hbusy in
theorem stay_commanded (ha : a.fresh = true) : Commanded r s s where
  txbuf := id
  regs := rfl
  between hw := Stands.between ⟨hb, ho, hw⟩ ha

end

theorem Between.invariant (h : Between t) (hs : Still t) (hres : t.line.resetOut = false) :
    Invariant t := by
  cases ho : t.ops with
  | nil => exact (invariant_idle (by simp [h.busy, ho])).2 ⟨hs, hres, ho⟩
  | cons a r =>
    obtain ⟨hout, hpulse⟩ := Act.fresh.outside (h.head a (by simp [ho]))
    exact (invariant_outside (by simp [h.busy, ho]) ho hout).2
      ⟨hs, by rw [hres, hpulse], by simpa [ho] using h.waits⟩

/-- The activations that never touch a register of a transaction, nor RESET_OUT. -/
def Act.command : Act → Bool
  | .xfer _ | .pulse _ => false
  | .send .. | .recv _ | .doCmd .. | .setPower _ | .waitPower .. | .waitAttn _ | .configure _ => true

theorem fresh_of_command (h : a.command = true) : a.fresh = true := by
  cases a with
  | xfer p => cases h
  | pulse p => cases h
  | _ => rfl

section

variable (hb : s.busy = true) (ho : s.ops = a :: r)

include hb ho

/-! ## The command layer, the waits, the sequencer -/

theorem sendMove_commanded {c0 c1 plen : Byte} {p : SendPos} :
    Commanded r s (sendMove c0 c1 plen p s) := by
  cases p with
  | start =>
    exact call_commanded hb ho
      (t := { s with txbuf := writeCommand s.params.cmdFrameId c0 c1 plen s.txbuf })
      (fun hf => ⟨writeCommand_wf hf.1, writeCommand_inCap hf.2⟩) rfl rfl rfl rfl rfl
  | sent => exact finish_commanded hb ho id rfl rfl rfl

theorem recvMove_commanded {p : RecvPos} :
    Commanded r s (recvMove p s) := by
  cases p with
  | start => exact call_commanded hb ho id rfl rfl rfl rfl rfl
  | waited =>
    unfold recvMove
    dsimp only
    split
    · exact finish_commanded hb ho id rfl rfl rfl
    · exact call_commanded hb ho (t := { s with txbuf := writeSentinel s.txbuf }) id rfl rfl rfl rfl rfl
  | received => exact finish_commanded hb ho id rfl rfl rfl

theorem doMove_commanded {c0 c1 plen : Byte} {p : DoPos} :
    Commanded r s (doMove c0 c1 plen p s) := by
  cases p with
  | start => exact call_commanded hb ho id rfl rfl rfl rfl rfl
  | sent =>
    unfold doMove
    dsimp only
    split
    · exact call_commanded hb ho id rfl rfl rfl rfl rfl
    · exact finish_commanded hb ho id rfl rfl rfl
  | received =>
    obtain ⟨q, hq⟩ := doVerdict_frame s.res.result s
    rw [doMove, hq]
    exact finish_commanded hb ho id rfl rfl rfl

theorem setPowerMove_commanded {st : Power} :
    Commanded r s (setPowerMove st s) :=
  finish_commanded hb ho id rfl rfl rfl

theorem waitPowerMove_commanded {st : Power} {n : Nat} (ha : a.fresh = true) :
    Commanded r s (waitPowerMove st n s) := by
  unfold waitPowerMove
  split
  · exact finish_commanded hb ho id rfl rfl rfl
  · obtain ⟨w, d, hx⟩ := readStatusLine_frame (countCall s)
    rcases calling_cases rfl with ht | ht <;> rw [ht]
    · exact stay_commanded hb ho ha
    · rw [hx]
      split
      · exact finish_commanded hb ho id rfl rfl rfl
      · exact goto_commanded hb ho id rfl rfl rfl rfl

theorem waitAttnMove_commanded {n : Nat} (ha : a.fresh = true) :
    Commanded r s (waitAttnMove n s) := by
  unfold waitAttnMove
  split
  · exact finish_commanded hb ho id rfl rfl rfl
  · obtain ⟨w, d, hx⟩ := readAttentionLine_frame (countCall s)
    rcases calling_cases rfl with ht | ht <;> rw [ht]
    · exact stay_commanded hb ho ha
    · rw [hx]
      split
      · exact finish_commanded hb ho id rfl rfl rfl
      · exact goto_commanded hb ho id rfl rfl rfl rfl

theorem confMove_commanded {p : ConfPos} (hm : confMove p s = .next t) :
    Commanded r s t := by
  cases p with
  | start =>
    cases hm
    exact goto_commanded hb ho id rfl rfl rfl rfl
  | attempt =>
    cases hm
    exact call_commanded hb ho (t := { s with
      seq := { s.seq with seqs := .reset, seqAttempts := satInc s.seq.seqAttempts } }) id rfl rfl rfl rfl rfl
  | pulsed =>
    cases hm
    exact call_commanded hb ho (t := setSeqs .harvest s) id rfl rfl rfl rfl rfl
  | harvested =>
    cases hm
    unfold confHarvested
    split
    · exact goto_commanded hb ho id rfl rfl rfl rfl
    · exact goto_commanded hb ho id rfl rfl rfl rfl
  | command =>
    rw [confMove, confCommand] at hm
    split at hm
    · rename_i hlen
      cases hm
      have hfits : 3 + (entryNow s).params.length ≤ Config.cap :=
        Nat.add_le_of_le_sub' (by decide) (hlen.trans (by decide))
      exact call_commanded hb ho (t := { s with txbuf := writeParams (entryNow s).params s.txbuf })
        (fun hf => ⟨memPutAll_wf _ _ hf.1, memPutAll_inCap hf.2 hfits⟩) rfl rfl rfl rfl rfl
    · cases hm
  | commanded =>
    cases hm
    unfold confCommanded
    split
    · split
      · exact goto_commanded hb ho id rfl rfl rfl rfl
      · exact finish_commanded hb ho id rfl rfl rfl
    · exact goto_commanded hb ho id rfl rfl rfl rfl

theorem move_commanded (ha : a.command = true) (hm : move a s = .next t) :
    Commanded r s t := by
  cases a with
  | xfer p => cases ha
  | pulse p => cases ha
  | send c0 c1 plen p => cases hm; exact sendMove_commanded hb ho
  | recv p => cases hm; exact recvMove_commanded hb ho
  | doCmd c0 c1 plen p => cases hm; exact doMove_commanded hb ho
  | setPower st => cases hm; exact setPowerMove_commanded hb ho
  | waitPower st n => cases hm; exact waitPowerMove_commanded hb ho rfl
  | waitAttn n => cases hm; exact waitAttnMove_commanded hb ho rfl
  | configure p => exact confMove_commanded hb ho hm

end

/-! ## Every micro-step keeps the invariant -/

theorem Stands.goto_outside (h : Stands a r t) (hs : Still t) (hb : b.outside = true)
    (hres : t.line.resetOut = b.pulsing) : Invariant (Machine.goto b t) :=
  have hgoto := Stands.goto h (b := b)
  (invariant_outside hgoto.1 hgoto.2.1 hb).2
    ⟨hs.of_eq hs.txbuf rfl, hres, h.2.2⟩

theorem Stands.goto_inside (h : Stands a r t) (hs : Engaged p t) (hp : selected p = true) :
    Invariant (Machine.goto (.xfer p) t) :=
  have hgoto := Stands.goto h (b := .xfer p)
  (invariant_inside hgoto.1 hgoto.2.1 hp).2
    ⟨⟨hs.toSound.of_eq hs.txbuf rfl rfl rfl, hs.select, hs.resetOut, hs.xchIn, hs.tx, hs.rx, hs.listens,
      hs.sends⟩, h.2.2⟩

theorem Engaged.still (h : Engaged .loop s) (hc : loopCond s = false) : Still (selectLine false s) := by
  obtain ⟨htx, hrx, -⟩ := (loopCond_eq_false_iff s).1 hc
  exact ⟨h.toSound.of_eq h.txbuf rfl rfl rfl, rfl, by simpa using h.xchIn, htx, hrx⟩

theorem Still.engaged {only : Bool} {st : TxState} {retry : Nat} (h : Still s)
    (hres : s.line.resetOut = false) (hsize : st ≠ .idle → badSize s.txbuf.length = false)
    (hdata : st ≠ .data) (honly : only = true → st = .idle) (hsend : only = false → retry = 0) :
    Engaged .selDelay (selectLine true (loadXfer only st retry (clearX s))) :=
  ⟨h.toSound.of_eq h.txbuf rfl rfl rfl, rfl, hres, by
    show s.line.xchIn.isSome = _
    simp [h.xchIn], ⟨hsize, fun hd => absurd hd hdata⟩, RxReady.of_idle rfl, honly, hsend⟩

theorem xferStart_invariant (hst : Stands (.xfer .start) r s) (hs : Still s)
    (hres : s.line.resetOut = false) : Invariant (xferStart s) := by
  have hst' (u : State) (ho : u.ops = s.ops) (hb : u.busy = s.busy) : Stands (.xfer .start) r u :=
    ⟨hb.trans hst.1, ho.trans hst.2.1, hst.2.2⟩
  unfold xferStart
  split
  · exact (hst' (selectLine true (loadXfer true .idle s.params.retryBudget (clearX s))) rfl rfl).goto_inside
      (hs.engaged hres (by simp) (by simp) (by simp) (by simp)) rfl
  · split
    · exact (hst' (clearX s) rfl rfl).goto_outside
        (hs.of_eq hs.txbuf rfl) rfl hres
    · rename_i hsize
      exact (hst' (selectLine true (loadXfer false .header 0 (clearX s))) rfl rfl).goto_inside
        (hs.engaged hres (by simpa using hsize) (by simp) (by simp) (by simp)) rfl

theorem xferRet_invariant (hst : Stands a r s) (hs : Still s) (hres : s.line.resetOut = false) :
    Invariant (xferRet s) :=
  have hc := finish_commanded hst.1 hst.2.1 (t := setResult s.xf.xresult s) id rfl rfl rfl
  (hc.between hst.2.2).invariant (hs.beside hc.toBeside) hres

theorem xferMove_invariant (hb : s.busy = true) (ho : s.ops = .xfer p :: r) (hs : Invariant s)
    (hm : xferMove p s = .next t) : Invariant t := by
  cases hp : selected p with
  | true =>
    by_cases hc : p = .loop → loopCond s = true
    · exact Inner.invariant ⟨hb, p, hp, ho, hc, hm⟩ hs
    · obtain ⟨rfl, hoff⟩ := Classical.not_imp.1 hc
      rw [Bool.not_eq_true] at hoff
      rw [xferMove, xferLoop, if_neg (by simp [hoff])] at hm
      cases hm
      obtain ⟨hengaged, hw⟩ := (invariant_inside hb ho hp).1 hs
      have hst : Stands (.xfer .loop) r (selectLine false s) := ⟨hb, ho, hw⟩
      exact hst.goto_outside (hengaged.still hoff) rfl hengaged.resetOut
  | false =>
    obtain ⟨hstill, hres, hw⟩ := (invariant_outside hb ho (by simp [Act.outside, hp])).1 hs
    have hst : Stands (.xfer p) r s := ⟨hb, ho, hw⟩
    cases p with
    | start =>
      cases hm
      exact xferStart_invariant hst hstill hres
    | finish =>
      cases hm
      unfold xferFinish
      split
      · exact hst.goto_outside hstill rfl hres
      · exact xferRet_invariant hst hstill hres
    | raise f =>
      have hframe := raiseFlag_frame f s
      have hops : (raiseFlag f s).ops = s.ops := by rw [hframe]
      have hgoto : t = goto (.xfer .ret) (raiseFlag f s) := by
        rw [xferMove, raiseNow_on ho] at hm
        cases hm
        simp [goto, hops, ho]
      rw [hgoto, hframe]
      exact (show Stands (.xfer (.raise f)) r _ from hst).goto_outside
        (hstill.of_eq hstill.txbuf rfl) rfl hres
    | ret =>
      cases hm
      exact xferRet_invariant hst hstill hres
    | selDelay | loop | exch | rx | after _ | byteDelay => cases hp

theorem pulseMove_invariant {p : PulsePos} (hst : Stands (.pulse p) r s) (hs : Still s)
    (hinv : Invariant s) (hres : s.line.resetOut = decide (p ≠ .start)) : Invariant (pulseMove p s) := by
  cases p with
  | start =>
    exact (show Stands (.pulse .start) r (resetAssert s) from hst).goto_outside
      (hs.of_eq hs.txbuf rfl) rfl rfl
  | hold =>
    rw [pulseMove]
    rcases calling_cases rfl with ht | ht <;> rw [ht]
    · exact hinv
    · exact (show Stands (.pulse .hold) r (delay s.params.tResetUs (countCall s)) from hst).goto_outside
        (hs.of_eq hs.txbuf rfl) rfl hres
  | release =>
    exact (show Stands (.pulse .release) r (setResult 0 (resetDeassert s)) from hst).finish.invariant
      (hs.of_eq hs.txbuf rfl) rfl

/-- A micro-step of the innermost activation keeps the invariant. -/
theorem move_invariant (hb : s.busy = true) (ho : s.ops = a :: r) (hs : Invariant s)
    (hm : move a s = .next t) : Invariant t := by
  cases ha : a.command with
  | true =>
    obtain ⟨hout, hpulse⟩ := Act.fresh.outside (fresh_of_command ha)
    obtain ⟨hstill, hres, hw⟩ := (invariant_outside hb ho hout).1 hs
    have hc := move_commanded hb ho ha hm
    exact (hc.between hw).invariant (hstill.beside hc.toBeside) (by rw [hc.resetOut, hres, hpulse])
  | false =>
    cases a with
    | xfer p => exact xferMove_invariant hb ho hs hm
    | pulse p =>
      cases hm
      obtain ⟨hstill, hres, hw⟩ := (invariant_outside hb ho rfl).1 hs
      exact pulseMove_invariant ⟨hb, ho, hw⟩ hstill hs hres
    | _ => cases ha

/-- A block with no operation in progress that accepts a host operation meets the invariant. -/
theorem Invariant.accept {w : World} (hb : s.busy = false) (hs : Invariant s) (ha : a.isFirst = true) :
    Invariant { s with world := w, busy := true, ops := [a] } := by
  obtain ⟨hstill, hres, -⟩ := (invariant_idle hb).1 hs
  obtain ⟨hout, hpulse⟩ := isFirst_outside ha
  exact (invariant_outside (s := { s with world := w, busy := true, ops := [a] }) rfl rfl hout).2
    ⟨hstill.of_eq hstill.txbuf rfl,
      by rw [hpulse]; exact hres, rfl⟩

/-! ## No fault -/

theorem Engaged.xferLoop_next (h : Engaged .loop s) (ho : s.ops = .xfer .loop :: r) :
    ∃ u, xferLoop s = .next u := by
  cases hc : loopCond s with
  | true => exact ⟨_, xferLoop_on ho hc h.tx.inside⟩
  | false => exact ⟨_, by rw [xferLoop, if_neg (by simp [hc])]⟩

theorem move_no_fault {f : Fault} (hb : s.busy = true) (ho : s.ops = a :: r) (hs : Invariant s) :
    move a s ≠ .fault f := by
  cases a with
  | xfer p =>
    cases p with
    | loop =>
      obtain ⟨u, hu⟩ := ((invariant_inside hb ho rfl).1 hs).1.xferLoop_next ho
      rw [move, xferMove, hu]
      exact nofun
    | _ => exact nofun
  | configure p =>
    cases p with
    | command =>
      obtain ⟨-, -, -, -, -, -, -, hparams⟩ := hs
      have hentry : (entryNow s).params.length ≤ Config.cap - 4 := of_decide_eq_true hparams s.seq.seqIdx
      rw [move, confMove, confCommand, if_pos hentry]
      exact nofun
    | _ => exact nofun
  | _ => exact nofun

theorem exchangeRound_invariant (hs : Invariant s) (h : exchangeRound s = .next t) : Invariant t := by
  by_cases hon : (atLoop s && loopCond s) = true
  · obtain ⟨hat, hc⟩ := (Bool.and_eq_true ..).mp hon
    obtain ⟨hb, r, ho⟩ := atLoop_iff.1 hat
    have hone : exchangeRounds 1 s = .next t := by rw [exchangeRounds, h, andThen_next, exchangeRounds]
    exact exchangeRounds_keeps (fun u v hu hstep => hstep.invariant hu) hb ho hs hone
  · rw [exchangeRound_idle (by simpa using hon)] at h
    cases h
    exact hs

theorem exchangeRound_no_fault {f : Fault} (hs : Invariant s) : exchangeRound s ≠ .fault f := by
  intro h
  by_cases hon : (atLoop s && loopCond s) = true
  · obtain ⟨hat, -⟩ := (Bool.and_eq_true ..).mp hon
    obtain ⟨hb, r, ho⟩ := atLoop_iff.1 hat
    obtain ⟨u, hu⟩ := ((invariant_inside hb ho rfl).1 hs).1.xferLoop_next ho
    rw [exchangeRound, if_pos hon, hu, andThen_next] at h
    split at h <;> cases h
  · rw [exchangeRound_idle (by simpa using hon)] at h
    cases h

theorem exchangeRounds_no_fault {n : Nat} {f : Fault} (hs : Invariant s) :
    exchangeRounds n s ≠ .fault f := by
  induction n generalizing s with
  | zero => exact nofun
  | succ n ih =>
    rw [exchangeRounds, Ne, andThen_eq_fault]
    rintro (h | ⟨u, hu, hrest⟩)
    · exact exchangeRound_no_fault hs h
    · exact ih (exchangeRound_invariant hs hu) hrest

/-! ## Reset -/

theorem openParams_legal : Config.openParams.legal = true := by
  have hentry (k : Nat) : (Config.openEntry k).params.length ≤ Config.cap - 4 :=
    (List.length_take_le _ _)
  unfold Config.Params.legal
  rw [decide_eq_true_eq]
  intro i
  match i with
  | 0 => exact hentry 0
  | 1 => exact hentry 1
  | 2 => exact hentry 2

theorem blockReset_invariant (hs : ParamsOk s) : Invariant (blockReset s) :=
  have hsound : Sound (blockReset s) := ⟨⟨rfl, rfl⟩, ⟨rfl, rfl⟩, ⟨rfl, rfl⟩, Nat.zero_lt_succ 63, hs⟩
  (invariant_idle rfl).2 ⟨⟨hsound, rfl, rfl, rfl, rfl⟩, rfl, rfl⟩

end Sys2Proof.Machine

open Sys2Proof Sys2Proof.Machine

/-- Settles O55: reset is a block reset, and the open entries of CONFIG_SEQ are cut to R9's bound. -/
theorem resetMeetsInvariant : Obligations.ResetMeetsInvariant :=
  ⟨blockReset_invariant (s := State.reset) openParams_legal, nofun, fun _ => .inl rfl⟩

/-- Settles O56: by what a step can be (`step_next_cases`), each micro-step by the activation it belongs to,
a frame taken whole as the micro-steps inside the transaction. -/
theorem everyStepKeepsInvariant : Obligations.EveryStepKeepsInvariant := by
  intro s t hs h
  cases step_next_cases h with
  | reset l hh ht =>
    obtain ⟨-, -, -, -, -, -, -, hparams⟩ := hs
    exact ht ▸ blockReset_invariant hparams
  | world w ht => exact ht ▸ hs
  | write n bytes w hb hn ht =>
    obtain ⟨hstill, hres, ho⟩ := (invariant_idle hb).1 hs
    subst ht
    exact (invariant_idle (s := { s with txbuf := _, world := w }) hb).2
      ⟨hstill.of_eq ⟨memWrite_wf _ _ hstill.txbuf.1, memWrite_inCap hstill.txbuf.2 hn⟩ rfl, hres, ho⟩
  | request a w hb ha hm =>
    exact move_invariant (s := { s with world := w, busy := true, ops := [a] }) rfl rfl (hs.accept hb ha) hm
  | micro a r w hb ho hm => exact move_invariant (s := { s with world := w }) hb ho hs hm
  | frame n r w hb ho hc hg hd hm =>
    exact exchangeRounds_keeps (s := { s with world := w }) (fun u v hu hstep => hstep.invariant hu)
      hb ho hs hm
  | empty w hb ho ht =>
    obtain ⟨-, -, ⟨hops, -⟩, -⟩ := hs
    simp [hb, ho] at hops

/-- Settles O57: the transmitter stays inside the payload array and CONFIG_SEQ within R9's bound, wherever the
step's micro-steps are made. -/
theorem noStepFaultsUnderInvariant : Obligations.NoStepFaultsUnderInvariant := by
  intro s hs f h
  obtain ⟨l, hdrop⟩ := dropPass_frame s
  have hs' : Invariant (dropPass s) := hdrop ▸ hs
  rcases step_cases s with ⟨o, hturn, hstep⟩ | ⟨hb, w, r, -, hstep⟩ | ⟨hb, ho, hstep⟩ |
    ⟨-, n, -, -, -, hstep⟩ | ⟨-, hstep⟩ <;> rw [hstep] at h
  · exact hostTurn_no_fault f (h ▸ hturn)
  · rcases exec_request_cases (s := popHost s) w hb with ⟨g, hg⟩ | ⟨a, ha, hexec⟩
    · simp [hg] at h
    · exact move_no_fault (s := { popHost s with busy := true, ops := [a] }) rfl rfl (hs.accept hb ha)
        (hexec ▸ h)
  · obtain ⟨a, r, ho⟩ := List.exists_cons_of_ne_nil ho
    rw [resume, dropPass_ops, ho] at h
    exact move_no_fault (by simpa using hb) (by simpa using ho) hs' h
  · exact exchangeRounds_no_fault hs' h
  · cases h

end
section
/-! What writes RXBUF, and what a transaction leaves alone (spec/10_state.md R24, spec/20_memory.md R60):
both by what a step can be. -/

namespace Sys2Proof.Machine

open Sys2Proof

variable {s t u : State} {a : Act} {p q : XferPos} {r : List Act}

/-! ## RXBUF -/

theorem xferMove_rxbuf_outside (hp : selected p = false) (hm : xferMove p s = .next t) :
    t.rxbuf = s.rxbuf := by
  cases p with
  | start =>
    cases hm
    unfold xferStart
    split
    · rfl
    · split <;> rfl
  | finish =>
    cases hm
    unfold xferFinish
    split <;> rfl
  | raise f =>
    cases hm
    rw [leaveRaise_rxbuf, raiseFlag_frame]
  | ret => cases hm; rfl
  | _ => cases hp

/-- Inside a transaction RXBUF is written by the commit alone. -/
theorem Inner.rxbuf (h : Inner r s t) : t.rxbuf = s.rxbuf ∨
    (s.ops = .xfer .rx :: r ∧ rxCommits (inByte s) s.rx = true ∧ t.rxbuf.length = s.rx.rxn) := by
  cases h.cases with
  | taken ho ht =>
    subst ht
    cases hc : rxCommits (inByte s) s.rx with
    | false => exact .inl (by simp [takenState, hc])
    | true => exact .inr ⟨ho, rfl, by simp [takenState, hc, commit]⟩
  | hung p hp ho ht => exact .inl (ht ▸ rfl)
  | waited p hp w ho ht => exact .inl (ht ▸ rfl)
  | sent ho hc hin ht => exact .inl (ht ▸ rfl)
  | exchanged b w d ho ht => exact .inl (ht ▸ rfl)
  | retried w ho ht => exact .inl (ht ▸ rfl)

theorem pulseMove_rxbuf (p : PulsePos) : (pulseMove p s).rxbuf = s.rxbuf := by
  cases p with
  | hold =>
    rw [pulseMove]
    rcases calling_cases rfl with ht | ht <;> rw [ht]
    rfl
  | _ => rfl

/-- A micro-step writes RXBUF only when it is the receive Checksum step that commits. -/
theorem move_rxbuf (hb : s.busy = true) (ho : s.ops = a :: r) (hm : move a s = .next t) :
    t.rxbuf = s.rxbuf ∨
      (s.ops = .xfer .rx :: r ∧ rxCommits (inByte s) s.rx = true ∧ t.rxbuf.length = s.rx.rxn) := by
  cases ha : a.command with
  | true => exact .inl (move_commanded hb ho ha hm).rxbuf
  | false =>
    cases a with
    | xfer p =>
      cases hp : selected p with
      | false => exact .inl (xferMove_rxbuf_outside hp hm)
      | true =>
        by_cases hc : p = .loop → loopCond s = true
        · exact Inner.rxbuf ⟨hb, p, hp, ho, hc, hm⟩
        · obtain ⟨rfl, hoff⟩ := Classical.not_imp.1 hc
          rw [move, xferMove, xferLoop, if_neg hoff] at hm
          cases hm
          exact .inl rfl
    | pulse p =>
      cases hm
      exact .inl (pulseMove_rxbuf p)
    | _ => cases ha

/-! ## The registers a transaction leaves alone -/

/-- From `s` to `t` a transaction has left alone what it never writes, and XRESULT has kept its bits. -/
structure Undisturbed (s t : State) : Prop where
  txbuf : t.txbuf = s.txbuf
  res : t.res = s.res
  seq : t.seq = s.seq
  params : t.params = s.params
  pwrReq : t.line.pwrReq = s.line.pwrReq
  resetOut : t.line.resetOut = s.line.resetOut
  xresult : s.xf.xresult &&& t.xf.xresult = s.xf.xresult

theorem Undisturbed.refl (s : State) : Undisturbed s s :=
  ⟨rfl, rfl, rfl, rfl, rfl, rfl, BitVec.and_self⟩

theorem Undisturbed.of_world {w : World} (h : Undisturbed { s with world := w } t) : Undisturbed s t :=
  ⟨h.txbuf, h.res, h.seq, h.params, h.pwrReq, h.resetOut, h.xresult⟩

theorem Undisturbed.trans (h : Undisturbed s t) (h' : Undisturbed t u) : Undisturbed s u where
  txbuf := h'.txbuf.trans h.txbuf
  res := h'.res.trans h.res
  seq := h'.seq.trans h.seq
  params := h'.params.trans h.params
  pwrReq := h'.pwrReq.trans h.pwrReq
  resetOut := h'.resetOut.trans h.resetOut
  xresult := by rw [← h.xresult, BitVec.and_assoc, h'.xresult]

/-- Raising flags keeps those raised before. -/
theorem and_or_same (x y : FlagSet) : x &&& (x ||| y) = x := by
  ext i hi
  simpa using Or.inl

theorem Inner.undisturbed (h : Inner r s t) : Undisturbed s t := by
  cases h.cases with
  | hung p hp ho ht => exact ht ▸ .refl s
  | waited p hp w ho ht => exact ht ▸ ⟨rfl, rfl, rfl, rfl, rfl, rfl, BitVec.and_self⟩
  | sent ho hc hin ht => exact ht ▸ ⟨rfl, rfl, rfl, rfl, rfl, rfl, and_or_same ..⟩
  | exchanged b w d ho ht => exact ht ▸ ⟨rfl, rfl, rfl, rfl, rfl, rfl, BitVec.and_self⟩
  | taken ho ht => subst ht; constructor <;> simp [takenState, and_or_same]
  | retried w ho ht => exact ht ▸ ⟨rfl, rfl, rfl, rfl, rfl, rfl, BitVec.and_self⟩

/-- Inside a transaction the innermost activation is XFER, between `select(1)` and `select(0)`. -/
theorem inTransaction_ops (h : inTransaction s = true) :
    s.busy = true ∧ ∃ p r, s.ops = .xfer p :: r ∧ selected p = true := by
  simp only [inTransaction, Bool.and_eq_true] at h
  obtain ⟨hb, hops⟩ := h
  refine ⟨hb, ?_⟩
  split at hops
  · rename_i p r ho
    exact ⟨p, r, ho, hops⟩
  · cases hops

theorem xferMove_undisturbed (hb : s.busy = true) (ho : s.ops = .xfer p :: r) (hp : selected p = true)
    (hm : xferMove p s = .next t) : Undisturbed s t := by
  by_cases hc : p = .loop → loopCond s = true
  · exact Inner.undisturbed ⟨hb, p, hp, ho, hc, hm⟩
  · obtain ⟨rfl, hoff⟩ := Classical.not_imp.1 hc
    rw [xferMove, xferLoop, if_neg hoff] at hm
    cases hm
    exact ⟨rfl, rfl, rfl, rfl, rfl, rfl, BitVec.and_self⟩

end Sys2Proof.Machine

open Sys2Proof Sys2Proof.Machine

/-- Settles O59: of the micro-steps only the receive Checksum step that commits writes RXBUF (R158); the
host's actions reach TXBUF alone. -/
theorem rxbufWrittenOnlyByCommit : Obligations.RxbufWrittenOnlyByCommit := by
  intro s t h
  cases step_next_cases h with
  | reset l hh ht => exact .inr (.inr (.inr ⟨l, hh⟩))
  | world w ht => exact .inl (ht ▸ rfl)
  | write n bytes w hb hn ht => exact .inl (ht ▸ rfl)
  | request a w hb ha hm =>
    rcases move_rxbuf rfl rfl hm with hkeep | ⟨ho, -⟩
    · exact .inl hkeep
    · obtain rfl : a = .xfer .rx := by simpa using ho
      cases ha
  | micro a r w hb ho hm =>
    rcases move_rxbuf (s := { s with world := w }) hb ho hm with hkeep | ⟨hrx, hc, hlen⟩
    · exact .inl hkeep
    · have hops : s.ops = .xfer .rx :: r := hrx
      simp only [rxCommits, Bool.and_eq_true, decide_eq_true_eq, Bool.not_eq_true'] at hc
      obtain ⟨⟨hst, hbyte⟩, hlong⟩ := hc
      exact .inr (.inl ⟨hb, by simp [hops], hst, ⟨_, (samples_iff s).2 ⟨hbyte.symm, rfl⟩⟩, hlong, hlen⟩)
  | frame n r w hb ho hc hg hd hm => exact .inr (.inr (.inl ⟨hb, hg, by simp [ho], hc, hd⟩))
  | empty w hb ho ht => exact .inl (ht ▸ rfl)

/-- Settles O60: by what a step inside a transaction can be: a micro-step of XFER, a frame's micro-steps, a
read by the host, or a block reset. -/
theorem transactionLeavesTheRestAlone : Obligations.TransactionLeavesTheRestAlone := by
  intro s t hin h
  obtain ⟨hbusy, p, r, hops, hp⟩ := inTransaction_ops hin
  suffices hcase : Undisturbed s t ∨ ∃ l, s.world.host = .reset :: l by
    refine hcase.imp_left fun hkeep => ?_
    exact ⟨hkeep.txbuf, hkeep.res, hkeep.seq, hkeep.params, hkeep.pwrReq, hkeep.resetOut, hkeep.xresult⟩
  cases step_next_cases h with
  | reset l hh ht => exact .inr ⟨l, hh⟩
  | world w ht => exact .inl (ht ▸ ⟨rfl, rfl, rfl, rfl, rfl, rfl, BitVec.and_self⟩)
  | write n bytes w hb hn ht => simp [hbusy] at hb
  | request a w hb ha hm => simp [hbusy] at hb
  | micro a r' w hb ho hm =>
    obtain ⟨rfl, rfl⟩ : Act.xfer p = a ∧ r = r' := by simpa [hops] using ho
    exact .inl (xferMove_undisturbed (s := { s with world := w }) hb hops hp hm).of_world
  | frame n r' w hb ho hc hg hd hm =>
    have hkeep : Undisturbed { s with world := w } t :=
      exchangeRounds_keeps (s := { s with world := w }) (fun u v hu hstep => hu.trans hstep.undisturbed)
        hb ho (.refl _) hm
    exact .inl hkeep.of_world
  | empty w hb ho ht => simp [hops] at ho

end
section
/-! Which flag sets XRESULT can hold (spec/60_exceptions.md R286): each micro-step of a transaction from
the flags of its place to the flags of the next. -/

namespace Sys2Proof.Machine

open Sys2Proof

variable {s t u : State} {a : Act} {p q : XferPos} {r : List Act}

/-! ## Masks of one bit -/

/-- A flag set and one bit: the bit alone, or nothing. -/
theorem and_txSuccess (x : FlagSet) (h : x &&& 0x002#9 ≠ 0) : x &&& 0x002#9 = 0x002#9 := by
  have hbit : (0x002#9 : FlagSet) = BitVec.twoPow 9 1 := rfl
  rw [hbit, BitVec.and_twoPow] at h ⊢
  split at h
  · rename_i hx
    rw [if_pos hx]
  · exact absurd rfl h

/-- A transmit mode's flags outside the receive flags: TX_SUCCESS, and none of the others. -/
theorem sentSet_of_masks {x : FlagSet} (hrest : x &&& 0x1C9#9 = 0) (hsent : x &&& 0x002#9 ≠ 0) :
    sentSet x := by
  have hmask : ~~~rxFlags = 0x1C9#9 ||| 0x002#9 := rfl
  rw [sentSet, hmask, BitVec.and_or_distrib_left, hrest, and_txSuccess x hsent]
  rfl

/-! ## The flags inside a transaction -/

theorem xresultAt_inside (hp : selected p = true) : XresultAt p s ↔
    (s.xf.rxonly = true → ListeningFlags p s) ∧ (s.xf.rxonly = false → SendingFlags s) := by
  cases p with
  | start | finish | raise f | ret => cases hp
  | _ => exact Iff.rfl

/-- A place at which nothing is being exchanged asks no more than any other. -/
theorem ListeningFlags.at (h : ListeningFlags p s) (hq : q ≠ .exch ∧ q ≠ .rx) : ListeningFlags q s := by
  obtain ⟨hbusy, hnone, hdone⟩ := h
  exact ⟨hbusy, hnone, fun hi hseen => ⟨(hdone hi hseen).1, (hdone hi hseen).2.1, hq⟩⟩

theorem ListeningFlags.congr (h : ListeningFlags p s) (hrx : t.rx = s.rx) (hxf : t.xf = s.xf) :
    ListeningFlags p t := by
  unfold ListeningFlags at *
  rwa [hrx, hxf]

theorem SendingFlags.congr (h : SendingFlags s) (htx : t.tx = s.tx) (hxf : t.xf = s.xf) :
    SendingFlags t := by
  unfold SendingFlags at *
  rwa [htx, hxf]

/-- Behind the receive state-step in receive-only mode. -/
theorem ListeningFlags.taken (b : Byte) (h : ListeningFlags .rx s) (hr : RxReady s.rx s.xf)
    (hq : q ≠ .exch ∧ q ≠ .rx) : ListeningFlags q (takenState b s) := by
  obtain ⟨hbusy, hnone, hdone⟩ := h
  obtain ⟨hon, hopen, hlong, -⟩ := hr
  have hq1 := hq.1
  have hq2 := hq.2
  cases hst : s.rx.rxs with
  | idle =>
    have hseen : s.xf.rxseen = false := by
      by_contra hs
      exact (hdone hst (by simpa using hs)).2.2.2 rfl
    have hzero := hnone hst hseen
    by_cases hb : b = Config.delim <;>
      simp [ListeningFlags, takenState, rxNext, rxOpens, rxRaised, hst, hb, hseen, hzero]
  | lenHi =>
    have hx := hbusy (by simp [hst])
    have hl := hopen (.inl hst)
    simp [ListeningFlags, takenState, rxNext, rxOpens, rxRaised, hst, hx, hl]
  | lenLo =>
    have hx := hbusy (by simp [hst])
    have hl := hopen (.inr hst)
    cases hw : tooLong (dataLength (rxWire b s.rx)) <;>
      simp [ListeningFlags, takenState, rxNext, rxOpens, rxRaised, hst, hx, hl, hw, flagCode]
  | ftype =>
    have hx := hbusy (by simp [hst])
    by_cases hn : 0 < s.rx.rxn.toNat <;>
      simp [ListeningFlags, takenState, rxNext, rxOpens, rxRaised, hst, hx, hn]
  | data =>
    have hx := hbusy (by simp [hst])
    by_cases hn : s.rx.rxidx + 1#16 = s.rx.rxn <;>
      simp [ListeningFlags, takenState, rxNext, rxOpens, rxRaised, hst, hx, hn]
  | cksum =>
    have hx := hbusy (by simp [hst])
    obtain ⟨hzero, hone⟩ := hon (by simp [hst])
    by_cases hb : b = checksum s.rx.rxsum <;> cases hl : s.rx.rxlong <;>
      simp [ListeningFlags, takenState, rxNext, rxOpens, rxRaised, receivedSet, hst, hx, hl, hb, hzero,
        hone, hq1, hq2, flagCode]

theorem rxRaised_cases (b : Byte) (q : RxRegs) : rxRaised b q = 0#9 ∨
    (q.rxs ≠ .idle ∧ (rxRaised b q = 0x004#9 ∨ rxRaised b q = 0x010#9 ∨ rxRaised b q = 0x020#9)) := by
  unfold rxRaised
  split
  case h_5 hst =>
    split
    · exact .inr ⟨by simp [hst], .inr (.inl rfl)⟩
    · exact .inl rfl
  case h_6 hst =>
    split
    · split
      · exact .inl rfl
      · exact .inr ⟨by simp [hst], .inl rfl⟩
    · exact .inr ⟨by simp [hst], .inr (.inr rfl)⟩
  all_goals exact .inl rfl

/-- Flags outside a mask do not show in it. -/
theorem or_and_of_and_eq_zero {x m k : FlagSet} (h : m &&& k = 0) : (x ||| m) &&& k = x &&& k := by
  rw [BitVec.and_comm, BitVec.and_or_distrib_left, BitVec.and_comm k m, h, BitVec.and_comm k x]
  exact BitVec.or_zero

/-- The receive state-step raises receive flags only. -/
theorem rxRaised_masks (b : Byte) (q : RxRegs) :
    rxRaised b q &&& 0x1C9#9 = 0 ∧ rxRaised b q &&& 0x002#9 = 0 := by
  rcases rxRaised_cases b q with h | ⟨-, h | h | h⟩ <;> rw [h] <;> exact ⟨rfl, rfl⟩

/-- Behind the receive state-step in transmit mode. -/
theorem SendingFlags.taken (b : Byte) (h : SendingFlags s) (hr : RxReady s.rx s.xf) :
    SendingFlags (takenState b s) := by
  obtain ⟨hrest, hsent, hrecv⟩ := h
  obtain ⟨hmask, htx⟩ := rxRaised_masks b s.rx
  refine ⟨(or_and_of_and_eq_zero hmask).trans hrest, ?_, fun hseen => ?_⟩
  · show ¬ (s.xf.xresult ||| rxRaised b s.rx) &&& 0x002#9 = 0 ↔ _
    rw [or_and_of_and_eq_zero htx]
    exact hsent
  · obtain ⟨hstill, -⟩ := (Bool.or_eq_false_iff).1 hseen
    have hzero : rxRaised b s.rx = 0#9 := by
      rcases rxRaised_cases b s.rx with h | ⟨hne, -⟩
      · exact h
      · exact absurd (hr.1 hne).2 (by simp [hstill])
    show (s.xf.xresult ||| rxRaised b s.rx) &&& rxFlags = 0
    rw [hzero, BitVec.or_zero, hrecv hstill]

/-- Behind the transmit state-step in transmit mode. -/
theorem SendingFlags.sent (h : SendingFlags s) : SendingFlags (sentState s) := by
  obtain ⟨hrest, hsent, hrecv⟩ := h
  have hraised : (txRaised s.tx = 0#9 ∧ ((txNext s.txbuf s.tx).txs = .idle ↔ s.tx.txs = .idle)) ∨
      (txRaised s.tx = 0x002#9 ∧ (txNext s.txbuf s.tx).txs = .idle) := by
    unfold txRaised txNext
    split <;> rename_i hst <;> simp [hst, flagCode]
    · split <;> simp
    · split <;> simp
  rcases hraised with ⟨hzero, hidle⟩ | ⟨hone, hidle⟩
  · have hx : (sentState s).xf = s.xf := by simp [sentState, hzero]
    unfold SendingFlags
    rw [hx]
    exact ⟨hrest, hsent.trans hidle.symm, hrecv⟩
  · have hx : (sentState s).xf.xresult = s.xf.xresult ||| 0x002#9 := by simp [sentState, hone]
    refine ⟨?_, ?_, fun hseen => ?_⟩
    · rw [hx, or_and_of_and_eq_zero rfl, hrest]
    · refine iff_of_true (fun hz => ?_) hidle
      rw [hx, BitVec.and_comm, BitVec.and_or_distrib_left] at hz
      have hbit := congrArg (fun y : FlagSet => y.getLsbD 1) hz
      simp at hbit
    · rw [hx, or_and_of_and_eq_zero rfl]
      exact hrecv hseen

/-- Inside a transaction every micro-step that stays inside takes the flags of its place to those of the
next. -/
theorem Inner.xresultAt (h : Inner r s t) (he : ∀ p, s.ops = .xfer p :: r → Engaged p s)
    (hx : ∀ p, s.ops = .xfer p :: r → selected p = true →
      (s.xf.rxonly = true → ListeningFlags p s) ∧ (s.xf.rxonly = false → SendingFlags s))
    (ho' : t.ops = .xfer q :: r) :
    (t.xf.rxonly = true → ListeningFlags q t) ∧ (t.xf.rxonly = false → SendingFlags t) := by
  cases h.cases with
  | hung p hp ho ht =>
    subst ht
    obtain rfl : p = q := by simpa [ho] using ho'
    exact hx p ho hp
  | waited p hp w ho ht =>
    subst ht
    obtain rfl : XferPos.loop = q := by simpa using ho'
    obtain ⟨hlisten, hsend⟩ := hx p ho (by rcases hp with rfl | rfl <;> rfl)
    exact ⟨fun hm => ((hlisten hm).at (by simp)).congr rfl rfl, fun hm => (hsend hm).congr rfl rfl⟩
  | sent ho hc hin ht =>
    subst ht
    obtain rfl : XferPos.exch = q := by simpa [sentState, ho] using ho'
    obtain ⟨hlisten, hsend⟩ := hx _ ho rfl
    refine ⟨fun hm => ?_, fun hm => (hsend hm).sent⟩
    have htx : s.tx.txs = .idle := (he _ ho).listens hm
    have hxf : (sentState s).xf = s.xf := by simp [sentState, txRaised, htx]
    obtain ⟨hbusy, hnone, hdone⟩ := hlisten hm
    refine ListeningFlags.congr (s := s) ⟨hbusy, hnone, fun hi hseen => ?_⟩ rfl hxf
    have hoff : loopCond s = false := (loopCond_eq_false_iff s).2 ⟨htx, hi, (hdone hi hseen).2.1⟩
    simp [hoff] at hc
  | exchanged b w d ho ht =>
    subst ht
    obtain rfl : XferPos.rx = q := by simpa using ho'
    obtain ⟨hlisten, hsend⟩ := hx _ ho rfl
    refine ⟨fun hm => ?_, fun hm => (hsend hm).congr rfl rfl⟩
    obtain ⟨hbusy, hnone, hdone⟩ := hlisten hm
    exact ⟨hbusy, hnone, fun hi hseen => absurd rfl (hdone hi hseen).2.2.1⟩
  | taken ho ht =>
    subst ht
    obtain rfl : XferPos.after _ = q := by simpa [takenState, ho] using ho'
    obtain ⟨hlisten, hsend⟩ := hx _ ho rfl
    have hrx : RxReady (takeIn s).rx (takeIn s).xf := by simpa using (he _ ho).rx
    refine ⟨fun hm => ListeningFlags.taken _ ?_ hrx (by simp), fun hm => SendingFlags.taken _ ?_ hrx⟩
    · exact (hlisten (by simpa [takenState] using hm)).congr (by simp) (by simp)
    · exact (hsend (by simpa [takenState] using hm)).congr (by simp) (by simp)
  | retried w ho ht =>
    subst ht
    obtain rfl : XferPos.byteDelay = q := by simpa using ho'
    obtain ⟨hlisten, hsend⟩ := hx _ ho rfl
    refine ⟨fun hm => ?_, hsend⟩
    obtain ⟨hbusy, hnone, hdone⟩ := hlisten hm
    refine ⟨hbusy, hnone, fun hi hseen => ⟨(hdone hi hseen).1, ?_, by simp⟩⟩
    simp [(hdone hi hseen).2.1]

/-! ## XRESULT wherever the block stands -/

theorem XferResult.congr (h : XferResult s) (hxf : t.xf = s.xf) : XferResult t := by
  unfold XferResult at *
  rwa [hxf]

/-- Where no transaction is under way XRESULT keeps the set it has. -/
theorem XresultOk.of_kept (hold : s.xf.xresult = 0 ∨ XferResult s) (hxf : t.xf = s.xf)
    (hhead : ∀ p, t.ops.head? = some (.xfer p) → p = .start) : XresultOk t := by
  refine ⟨fun p hp => ?_, fun _ => ?_⟩
  · obtain rfl := hhead p hp
    exact trivial
  · exact hold.imp (fun h => hxf ▸ h) fun h => h.congr hxf

theorem XresultOk.of_head (ho : t.ops = .xfer p :: r) (hat : XresultAt p t)
    (hold : inTransaction t = false → t.xf.xresult = 0 ∨ XferResult t) : XresultOk t := by
  refine ⟨fun q hq => ?_, hold⟩
  obtain rfl : p = q := by simpa [ho] using hq
  exact hat

theorem Between.head_start (h : Between t) (hp : t.ops.head? = some (.xfer p)) : p = .start := by
  have hfresh := h.head _ hp
  simpa [Act.fresh] using hfresh

theorem Inner.xresultOk (h : Inner r s t) (hs : Invariant s) (hx : XresultOk s) : XresultOk t := by
  obtain ⟨hb', q, hq, ho'⟩ := h.stays
  have hb := h.1
  have he (p : XferPos) (ho : s.ops = .xfer p :: r) (hp : selected p = true) : Engaged p s :=
    ((invariant_inside hb ho hp).1 hs).1
  obtain ⟨-, p, hp, ho, -⟩ := id h
  have hat (p' : XferPos) (ho' : s.ops = .xfer p' :: r) (hp' : selected p' = true) :=
    (xresultAt_inside hp').1 (hx.1 p' (by simp [ho']))
  have hengaged (p' : XferPos) (ho' : s.ops = .xfer p' :: r) : Engaged p' s := by
    obtain rfl : p = p' := by simpa [ho] using ho'
    exact he p ho hp
  refine .of_head ho' ((xresultAt_inside hq).2 (h.xresultAt hengaged hat ho')) fun hout => ?_
  simp [inTransaction_head hb' ho', Act.outside, hq] at hout

/-! ## Micro-steps of XFER outside a transaction -/

/-- XFER's return leaves one of R286's sets in XRESULT and in RESULT. -/
theorem xferRet_xresult (hst : Stands a r s) (hx : XferResult s) :
    XresultOk (xferRet s) ∧ XferResult (xferRet s) ∧ (xferRet s).res.result = (xferRet s).xf.xresult := by
  have hend := finish_commanded hst.1 hst.2.1 (t := setResult s.xf.xresult s) id rfl rfl rfl
  exact ⟨.of_kept (.inr hx) hend.xf fun p => (hend.between hst.2.2).head_start, hx.congr hend.xf, rfl⟩

theorem xferStart_xresult (ho : s.ops = .xfer .start :: r) : XresultOk (xferStart s) ∧
    ∃ q, (xferStart s).ops = .xfer q :: r := by
  unfold xferStart
  split
  · refine ⟨.of_head (p := .selDelay) (r := r) (by simp [goto, ho]) ?_ fun _ => .inl rfl, .selDelay,
      by simp [goto, ho]⟩
    exact ⟨fun _ => by simp [ListeningFlags, goto, selectLine, emit, loadXfer, clearX], nofun⟩
  · split
    · exact ⟨.of_head (p := .raise .sizeError) (r := r) (by simp [goto, clearX, ho]) ⟨rfl, .inl rfl⟩
        fun _ => .inl rfl, .raise .sizeError, by simp [goto, clearX, ho]⟩
    · refine ⟨.of_head (p := .selDelay) (r := r) (by simp [goto, ho]) ?_ fun _ => .inl rfl, .selDelay,
        by simp [goto, ho]⟩
      exact ⟨nofun, fun _ => by simp [SendingFlags, goto, selectLine, emit, loadXfer, clearX]⟩

/-- Behind the loop the flags are those of the mode (R179, R286). -/
theorem loopEnd_xresult (ho : s.ops = .xfer .loop :: r) (hc : loopCond s = false)
    (hx : (s.xf.rxonly = true → ListeningFlags .loop s) ∧ (s.xf.rxonly = false → SendingFlags s)) :
    XresultOk (goto (.xfer .finish) (selectLine false s)) := by
  obtain ⟨htx, hrx, -⟩ := (loopCond_eq_false_iff s).1 hc
  have hsent (hm : s.xf.rxonly = false) : XferResult s := by
    obtain ⟨hrest, hflag, -⟩ := hx.2 hm
    exact .inr (.inr ⟨hm, sentSet_of_masks hrest (hflag.2 htx)⟩)
  have hseen (hm : s.xf.rxonly = true) (hs : s.xf.rxseen = true) : XferResult s :=
    .inr (.inl ⟨hm, .inr ((hx.1 hm).2.2 hrx hs).1⟩)
  have hnone (hm : s.xf.rxonly = true) (hs : s.xf.rxseen = false) : s.xf.xresult = 0 :=
    (hx.1 hm).2.1 hrx hs
  refine .of_head (p := .finish) (r := r) (by simp [goto, ho]) ⟨hnone, fun hor => ?_⟩ fun _ => ?_
  · cases hm : s.xf.rxonly with
    | false => exact hsent hm
    | true => exact hseen hm (hor.resolve_left (by simp [goto, selectLine, emit, hm]))
  · cases hm : s.xf.rxonly with
    | false => exact .inr (hsent hm)
    | true =>
      cases hs : s.xf.rxseen with
      | false => exact .inl (hnone hm hs)
      | true => exact .inr (hseen hm hs)

theorem raise_xresult {f : Flag} (hat : XresultAt (.raise f) s) :
    XferResult { raiseFlag f s with ops := .xfer .ret :: r } := by
  obtain ⟨hzero, rfl | ⟨rfl, hm⟩⟩ := hat
  · exact .inl (by simp [raiseX, withFlag, flagCode, hzero])
  · exact .inr (.inl ⟨hm, .inl (by simp [raiseX, withFlag, flagCode, hzero])⟩)

/-- A micro-step of XFER keeps XRESULT within the sets of its place, and its return leaves one of R286's
sets. -/
theorem xferMove_xresult (hb : s.busy = true) (ho : s.ops = .xfer p :: r) (hs : Invariant s)
    (hx : XresultOk s) (hm : xferMove p s = .next t) :
    XresultOk t ∧ (t.ops = r → XferResult t ∧ t.res.result = t.xf.xresult) := by
  have hstays {q : XferPos} (h : t.ops = .xfer q :: r) : t.ops = r →
      XferResult t ∧ t.res.result = t.xf.xresult := fun he => by simp [h] at he
  have hat : XresultAt p s := hx.1 p (by simp [ho])
  cases hp : selected p with
  | true =>
    by_cases hc : p = .loop → loopCond s = true
    · have hinner : Inner r s t := ⟨hb, p, hp, ho, hc, hm⟩
      obtain ⟨-, q, -, hq⟩ := hinner.stays
      exact ⟨hinner.xresultOk hs hx, hstays hq⟩
    · obtain ⟨rfl, hoff⟩ := Classical.not_imp.1 hc
      rw [xferMove, xferLoop, if_neg hoff] at hm
      cases hm
      exact ⟨loopEnd_xresult ho (by simpa using hoff) hat, hstays (q := .finish) (by simp [goto, ho])⟩
  | false =>
    have hw := ((invariant_outside hb ho (by simp [Act.outside, hp])).1 hs).2.2
    have hst : Stands (.xfer p) r s := ⟨hb, ho, hw⟩
    cases p with
    | start =>
      cases hm
      obtain ⟨hok, q, hq⟩ := xferStart_xresult ho
      exact ⟨hok, hstays hq⟩
    | finish =>
      cases hm
      unfold xferFinish at hstays ⊢
      split
      · rename_i hdue
        rw [if_pos hdue] at hstays
        simp only [Bool.and_eq_true, Bool.not_eq_true'] at hdue
        obtain ⟨honly, hseen⟩ := hdue
        have hzero := hat.1 honly hseen
        exact ⟨.of_head (p := .raise .noData) (r := r) (by simp [goto, ho]) ⟨hzero, .inr ⟨rfl, honly⟩⟩
          fun _ => .inl hzero, hstays (q := .raise .noData) (by simp [goto, ho])⟩
      · rename_i hdue
        have hor : s.xf.rxonly = false ∨ s.xf.rxseen = true := by
          cases hm : s.xf.rxonly <;> simp_all
        obtain ⟨hok, hret⟩ := xferRet_xresult hst (hat.2 hor)
        exact ⟨hok, fun _ => hret⟩
    | raise f =>
      rw [xferMove, raiseNow_on ho] at hm
      cases hm
      have hres := raise_xresult (r := r) hat
      exact ⟨.of_head (p := .ret) (r := r) rfl hres fun _ => .inr hres, hstays (q := .ret) rfl⟩
    | ret =>
      cases hm
      obtain ⟨hok, hret⟩ := xferRet_xresult hst hat
      exact ⟨hok, fun _ => hret⟩
    | _ => cases hp

theorem pulseMove_xresult {p : PulsePos} (hst : Stands (.pulse p) r s) (hx : XresultOk s)
    (hold : s.xf.xresult = 0 ∨ XferResult s) : XresultOk (pulseMove p s) := by
  cases p with
  | start => exact .of_kept hold rfl nofun
  | hold =>
    rw [pulseMove]
    rcases calling_cases rfl with ht | ht <;> rw [ht]
    · exact hx
    · exact .of_kept hold rfl nofun
  | release =>
    exact .of_kept hold rfl fun p =>
      (show Stands (.pulse .release) r (setResult 0 (resetDeassert s)) from hst).finish.head_start

/-- A micro-step of the innermost activation keeps XRESULT within the sets of its place. -/
theorem move_xresult (hb : s.busy = true) (ho : s.ops = a :: r) (hs : Invariant s) (hx : XresultOk s)
    (hm : move a s = .next t) : XresultOk t := by
  have hold (hout : a.outside = true) : s.xf.xresult = 0 ∨ XferResult s :=
    hx.2 (by simp [inTransaction_head hb ho, hout])
  cases ha : a.command with
  | true =>
    obtain ⟨hout, -⟩ := Act.fresh.outside (fresh_of_command ha)
    have hw := ((invariant_outside hb ho hout).1 hs).2.2
    have hc := move_commanded hb ho ha hm
    exact .of_kept (hold hout) hc.xf fun p => (hc.between hw).head_start
  | false =>
    cases a with
    | xfer p => exact (xferMove_xresult hb ho hs hx hm).1
    | pulse p =>
      cases hm
      exact pulseMove_xresult ⟨hb, ho, ((invariant_outside hb ho rfl).1 hs).2.2⟩ hx (hold rfl)
    | _ => cases ha

end Sys2Proof.Machine

open Sys2Proof Sys2Proof.Machine

/-- Settles O58: by what a step can be, `move_xresult` for every micro-step, and for XFER's own
`xferMove_xresult`. -/
theorem everyStepKeepsXresultReachable : Obligations.EveryStepKeepsXresultReachable := by
  intro s t hs hx h
  cases step_next_cases h with
  | reset l hh ht =>
    exact ⟨ht ▸ ⟨nofun, fun _ => .inl rfl⟩, fun p r ho hr hno => absurd hh (hno l)⟩
  | world w ht => exact ⟨ht ▸ hx, fun p r ho hr => by simp [ht, ho] at hr⟩
  | write n bytes w hb hn ht => exact ⟨ht ▸ hx, fun p r ho hr => by simp [ht, ho] at hr⟩
  | request a w hb ha hm =>
    obtain ⟨-, -, hnil⟩ := (invariant_idle hb).1 hs
    have hold := hx.2 (by simp [inTransaction, hb])
    have hstart : XresultOk { s with world := w, busy := true, ops := [a] } :=
      .of_kept hold rfl fun p hp => by
        obtain rfl : a = .xfer p := by simpa using hp
        have hfresh := fresh_of_isFirst ha
        simpa [Act.fresh] using hfresh
    exact ⟨move_xresult (s := { s with world := w, busy := true, ops := [a] }) rfl rfl (hs.accept hb ha)
      hstart hm, fun p r ho => by simp [hnil] at ho⟩
  | micro a r w hb ho hm =>
    refine ⟨move_xresult (s := { s with world := w }) hb ho hs hx hm, fun p r' ho' hr _ => ?_⟩
    obtain ⟨rfl, rfl⟩ : a = .xfer p ∧ r = r' := by simpa [ho] using ho'
    exact (xferMove_xresult (s := { s with world := w }) hb ho hs hx hm).2 hr
  | frame n r w hb ho hc hg hd hm =>
    have hkept : Invariant t ∧ XresultOk t ∧ ∃ q, t.ops = .xfer q :: r :=
      exchangeRounds_keeps (s := { s with world := w })
        (P := fun u => Invariant u ∧ XresultOk u ∧ ∃ q, u.ops = .xfer q :: r)
        (fun u v ⟨hinv, hok, _⟩ hstep => by
          obtain ⟨-, q, -, hq⟩ := hstep.stays
          exact ⟨hstep.invariant hinv, hstep.xresultOk hinv hok, q, hq⟩)
        hb ho ⟨hs, hx, .loop, ho⟩ hm
    obtain ⟨-, hok, q, hq⟩ := hkept
    refine ⟨hok, fun p r' ho' hr => ?_⟩
    obtain ⟨-, rfl⟩ : XferPos.loop = p ∧ r = r' := by simpa [ho] using ho'
    simp [hq] at hr
  | empty w hb ho ht =>
    obtain ⟨-, -, ⟨hops, -⟩, -⟩ := hs
    simp [hb, ho] at hops

end
section
/-! The grain of the wire (log 9): a micro-step neither reads nor writes the host's plan and the grain, so
exchange steps taken a frame at a time are steps of the machine that takes the wire a byte at a time. -/

namespace Sys2Proof.Machine

open Sys2Proof

variable {s t u : State} {a : Act} {p q : XferPos} {r : List Act} {h : List HostAct} {g : Grain}

/-! ## Micro-steps with another plan of the host and another grain -/

/-- The state with another plan of the host and another grain. -/
def withPort (h : List HostAct) (g : Grain) (s : State) : State :=
  { s with world := { s.world with host := h, grain := g } }

theorem withPort_self (s : State) : withPort s.world.host s.world.grain s = s := rfl

theorem bytewise_eq_withPort (s : State) : bytewise s = withPort s.world.host .byte s := rfl

theorem calling_withPort {f : State → State} (hf : ∀ u, f (withPort h g u) = withPort h g (f u)) :
    calling f (withPort h g s) = withPort h g (calling f s) := by
  have hcount : countCall (withPort h g s) = withPort h g (countCall s) := rfl
  rw [calling, calling, hcount, hf, apply_ite (withPort h g)]
  rfl

theorem exchange_withPort : exchange (withPort h g s) = withPort h g (exchange s) := by
  cases hin : s.world.inbound <;> simp [exchange, dropByte, nextByte, emit, withPort, hin]

theorem readStatusLine_withPort : readStatusLine (withPort h g s) = withPort h g (readStatusLine s) := by
  cases hin : s.world.statusIn <;>
    simp [readStatusLine, dropStatus, nextStatus, emit, withPort, hin]

theorem readAttentionLine_withPort :
    readAttentionLine (withPort h g s) = withPort h g (readAttentionLine s) := by
  cases hin : s.world.attnIn <;>
    simp [readAttentionLine, dropAttn, nextAttn, emit, withPort, hin]

theorem takeIn_withPort : takeIn (withPort h g s) = withPort h g (takeIn s) := by
  cases hin : s.line.xchIn <;> simp [takeIn, withPort, hin]

theorem raiseFlag_withPort (f : Flag) : raiseFlag f (withPort h g s) = withPort h g (raiseFlag f s) := by
  cases f <;> rfl

theorem xferStart_withPort : xferStart (withPort h g s) = withPort h g (xferStart s) := by
  simp only [xferStart, apply_ite (withPort h g)]
  rfl

theorem xferFinish_withPort : xferFinish (withPort h g s) = withPort h g (xferFinish s) := by
  simp only [xferFinish, apply_ite (withPort h g)]
  rfl

theorem xferAfter_withPort (w : Bool) : xferAfter w (withPort h g s) = withPort h g (xferAfter w s) := by
  have hretry : retryUpdate w (withPort h g s) = withPort h g (retryUpdate w s) := by
    simp only [retryUpdate, apply_ite (withPort h g)]
    rfl
  rw [xferAfter, hretry]
  rfl

theorem xferSelDelay_withPort : xferSelDelay (withPort h g s) = withPort h g (xferSelDelay s) :=
  calling_withPort (f := fun t => goto (.xfer .loop) (delay t.params.tSelectUs t)) fun _ => rfl

theorem xferByteDelay_withPort : xferByteDelay (withPort h g s) = withPort h g (xferByteDelay s) :=
  calling_withPort (f := fun t => goto (.xfer .loop) (delay t.params.tByteUs t)) fun _ => rfl

theorem xferMove_withPort (ho : s.ops = .xfer p :: r) (hm : xferMove p s = .next t) :
    xferMove p (withPort h g s) = .next (withPort h g t) := by
  have ho' : (withPort h g s).ops = .xfer p :: r := ho
  cases p with
  | start => cases hm; exact congrArg _ xferStart_withPort
  | selDelay => cases hm; exact congrArg _ xferSelDelay_withPort
  | loop =>
    cases hc : loopCond s with
    | true =>
      obtain ⟨hin, rfl⟩ := xferLoop_sent ho hc hm
      exact xferLoop_on ho' hc hin
    | false =>
      have hc' : loopCond (withPort h g s) = false := hc
      rw [xferMove, xferLoop, if_neg (by simp [hc])] at hm
      cases hm
      rw [xferMove, xferLoop, if_neg (by simp [hc'])]
      rfl
  | exch =>
    cases hm
    refine congrArg _ (calling_withPort fun u => ?_)
    rw [exchange_withPort]
    rfl
  | rx =>
    cases hm
    rw [xferMove, xferRx_eq ho, xferRx_eq ho', takeIn_withPort]
    rfl
  | after w => cases hm; exact congrArg _ (xferAfter_withPort w)
  | byteDelay => cases hm; exact congrArg _ xferByteDelay_withPort
  | finish => cases hm; exact congrArg _ xferFinish_withPort
  | raise f =>
    rw [xferMove, raiseNow_on ho] at hm
    cases hm
    rw [xferMove, raiseNow_on ho', raiseFlag_withPort]
    rfl
  | ret => cases hm; rfl

theorem recvMove_withPort (p : RecvPos) : recvMove p (withPort h g s) = withPort h g (recvMove p s) := by
  cases p with
  | waited =>
    simp only [recvMove, apply_ite (withPort h g)]
    rfl
  | _ => rfl

theorem doMove_withPort (c0 c1 plen : Byte) (p : DoPos) :
    doMove c0 c1 plen p (withPort h g s) = withPort h g (doMove c0 c1 plen p s) := by
  cases p with
  | start => rfl
  | sent =>
    simp only [doMove, apply_ite (withPort h g)]
    rfl
  | received =>
    have hverdict : doVerdict s.res.result (withPort h g s) = withPort h g (doVerdict s.res.result s) := by
      simp only [doVerdict, apply_ite (withPort h g)]
      rfl
    rw [doMove, show (withPort h g s).res = s.res from rfl, hverdict]
    rfl

theorem waitPowerMove_withPort (st : Power) (n : Nat) :
    waitPowerMove st n (withPort h g s) = withPort h g (waitPowerMove st n s) := by
  rw [waitPowerMove, waitPowerMove, calling_withPort fun u => ?_, apply_ite (withPort h g)]
  · rfl
  · rw [readStatusLine_withPort, apply_ite (withPort h g)]
    rfl

theorem waitAttnMove_withPort (n : Nat) :
    waitAttnMove n (withPort h g s) = withPort h g (waitAttnMove n s) := by
  rw [waitAttnMove, waitAttnMove, calling_withPort fun u => ?_, apply_ite (withPort h g)]
  · rfl
  · rw [readAttentionLine_withPort, apply_ite (withPort h g)]
    rfl

theorem pulseMove_withPort (p : PulsePos) : pulseMove p (withPort h g s) = withPort h g (pulseMove p s) := by
  cases p with
  | hold =>
    exact calling_withPort (f := fun t => goto (.pulse .release) (delay t.params.tResetUs t)) fun _ => rfl
  | _ => rfl

theorem confHarvested_withPort : confHarvested (withPort h g s) = withPort h g (confHarvested s) := by
  simp only [confHarvested, apply_ite (withPort h g)]
  rfl

theorem confCommanded_withPort : confCommanded (withPort h g s) = withPort h g (confCommanded s) := by
  have hidx : (withPort h g s).seq = s.seq := rfl
  simp only [confCommanded, apply_ite (withPort h g), hidx]
  cases nextIdx s.seq.seqIdx <;> rfl

theorem confMove_withPort {p : ConfPos} (hm : confMove p s = .next t) :
    confMove p (withPort h g s) = .next (withPort h g t) := by
  cases p with
  | start | attempt | pulsed => cases hm; rfl
  | harvested => cases hm; exact congrArg Host.Outcome.next confHarvested_withPort
  | command =>
    rw [confMove, confCommand] at hm
    split at hm
    · rename_i hlen
      cases hm
      exact if_pos hlen
    · cases hm
  | commanded => cases hm; exact congrArg Host.Outcome.next confCommanded_withPort

/-- A micro-step neither reads nor writes the host's plan and the grain. -/
theorem move_withPort (ho : s.ops = a :: r) (hm : move a s = .next t) :
    move a (withPort h g s) = .next (withPort h g t) := by
  cases a with
  | xfer p => exact xferMove_withPort ho hm
  | send c0 c1 plen p => cases hm; cases p <;> rfl
  | recv p => cases hm; exact congrArg _ (recvMove_withPort p)
  | doCmd c0 c1 plen p => cases hm; exact congrArg _ (doMove_withPort c0 c1 plen p)
  | setPower st => cases hm; rfl
  | waitPower st n => cases hm; exact congrArg _ (waitPowerMove_withPort st n)
  | waitAttn n => cases hm; exact congrArg _ (waitAttnMove_withPort n)
  | pulse p => cases hm; exact congrArg _ (pulseMove_withPort p)
  | configure p => exact confMove_withPort hm

theorem move_host (ho : s.ops = a :: r) (hm : move a s = .next t) : t.world.host = s.world.host := by
  have hsame := move_withPort (h := s.world.host) (g := s.world.grain) ho hm
  rw [withPort_self, hm] at hsame
  rw [Host.Outcome.next.inj hsame]
  rfl

/-! ## Steps a byte at a time -/

/-- A micro-step is a step of the machine that takes the wire a byte at a time. -/
theorem step_bytewise (hb : s.busy = true) (ho : s.ops = a :: r) (hh : s.world.host = [])
    (hm : move a s = .next t) : step (bytewise s) = .next (bytewise t) := by
  have hops : (bytewise s).ops = a :: r := ho
  rw [step_eq_resume (s := bytewise s) hb (by simp [hops]) hh rfl, resume, hops, bytewise_eq_withPort,
    bytewise_eq_withPort, move_host ho hm]
  exact move_withPort ho hm

/-- Micro-steps inside a transaction are as many steps of that machine. -/
theorem steps_bytewise_of_inner (hrun : Relation.TransGen (Inner r) s t) (hh : s.world.host = []) :
    t.world.host = [] ∧ ∃ k, 0 < k ∧ steps k (bytewise s) = .next (bytewise t) := by
  have hone {u v : State} (hstep : Inner r u v) (hu : u.world.host = []) :
      v.world.host = [] ∧ step (bytewise u) = .next (bytewise v) := by
    obtain ⟨hb, p, -, ho, -, hm⟩ := hstep
    have hmove : move (.xfer p) u = .next v := hm
    exact ⟨(move_host ho hmove).trans hu, step_bytewise hb ho hu hmove⟩
  induction hrun with
  | single hstep =>
    obtain ⟨hhost, hs⟩ := hone hstep hh
    exact ⟨hhost, 1, Nat.one_pos, by rw [steps_next hs, steps]⟩
  | tail _ hstep ih =>
    obtain ⟨hu, k, hk, hsteps⟩ := ih
    obtain ⟨hhost, hs⟩ := hone hstep hu
    exact ⟨hhost, k + 1, Nat.succ_pos k, by rw [steps_add, hsteps, andThen_next, steps_next hs, steps]⟩

/-- A run of whole exchange steps that makes at least one is a run of micro-steps, at least one. -/
theorem exchangeRounds_transGen {n : Nat} (hn : 0 < n) (hb : s.busy = true)
    (ho : s.ops = .xfer .loop :: r) (hc : loopCond s = true) (hm : exchangeRounds n s = .next t) :
    Relation.TransGen (Inner r) s t := by
  obtain ⟨m, rfl⟩ := Nat.exists_eq_succ_of_ne_zero hn.ne'
  obtain ⟨u, hround, hrest⟩ := andThen_eq_next.1 hm
  have hrun := exchangeRound_inner hb ho hc hround
  obtain ⟨v, -, hlast⟩ := Relation.TransGen.tail'_iff.1 hrun
  obtain ⟨hub, q, hq, huo⟩ := hlast.stays
  exact hrun.trans_left (exchangeRounds_inner hub hq huo hrest)

end Sys2Proof.Machine

open Sys2Proof Sys2Proof.Machine

/-- Settles O33: a micro-step is one step of the byte-wise machine, a frame taken whole a run of them, and an
idle step an idle step. -/
theorem frameStepRefinesByteSteps : Obligations.FrameStepRefinesByteSteps := by
  intro s t hh h
  have hone (hs : step (bytewise s) = .next (bytewise t)) :
      ∃ k, 0 < k ∧ steps k (bytewise s) = .next (bytewise t) :=
    ⟨1, Nat.one_pos, by rw [steps_next hs, steps]⟩
  rcases step_cases s with ⟨o, hturn, -⟩ | ⟨-, w, l, hw, -⟩ | ⟨hb, ho, hstep⟩ |
    ⟨hb, n, hhead, hc, hn, hstep⟩ | ⟨hempty, hstep⟩
  · simp [hostTurn_none hh] at hturn
  · simp [hh] at hw
  · obtain ⟨a, r, hops⟩ := List.exists_cons_of_ne_nil ho
    rw [hstep, dropPass_nil s hh, resume, hops] at h
    exact hone (step_bytewise hb hops hh h)
  · rw [hstep, dropPass_nil s hh] at h
    obtain ⟨r, ho⟩ : ∃ r, s.ops = .xfer .loop :: r := by
      cases ho : s.ops <;> simp_all
    exact (steps_bytewise_of_inner (exchangeRounds_transGen hn hb ho hc h) hh).2
  · rw [hstep, dropPass_nil s hh] at h
    cases h
    refine hone ?_
    rcases step_cases (bytewise s) with ⟨o, hturn, -⟩ | ⟨-, w, l, hw, -⟩ | ⟨hb, ho, -⟩ |
      ⟨hb, n, hhead, -⟩ | ⟨-, hstep'⟩
    · simp [hostTurn_none (s := bytewise s) hh] at hturn
    · simp [bytewise, hh] at hw
    · exact absurd (hempty hb) ho
    · have hnil := hempty hb
      simp [bytewise, hnil] at hhead
    · rw [hstep', dropPass_nil (bytewise s) hh]
      rfl

end
section
/-! Every transaction ends (spec/41_transaction.md R185): the exchange steps a transaction can still make,
counted from its registers. -/

namespace Sys2Proof.Machine

open Sys2Proof

variable {s t u : State} {r : List Act}

/-! ## The exchange steps left -/

/-- The transmit state-steps until TX_IDLE. -/
def txLeft (f : FrameBuffer) (q : TxRegs) : Nat :=
  match q.txs with
  | .idle => 0
  | .header => f.length.toNat + 5
  | .lenHi => f.length.toNat + 4
  | .lenLo => f.length.toNat + 3
  | .ftype => f.length.toNat + 2
  | .data => f.length.toNat - q.txidx.toNat + 1
  | .cksum => 1

/-- The receive state-steps until RX_IDLE at most: RXN is below 65535. -/
def rxLeft (q : RxRegs) : Nat :=
  match q.rxs with
  | .idle => 0
  | .lenHi => 65538
  | .lenLo => 65537
  | .ftype => q.rxn.toNat + 2
  | .data => q.rxn.toNat - q.rxidx.toNat + 1
  | .cksum => 1

/-- The exchange steps until the transmitter is done and the retries are used up. -/
def driveLeft (s : State) : Nat := max (txLeft s.txbuf s.tx) s.xf.retry

/-- The exchange steps left at most: a frame can begin to come in with the last one the block drives. -/
def roundsLeft (s : State) : Nat :=
  if driveLeft s = 0 then rxLeft s.rx else driveLeft s + 65538

theorem txLeft_le {f : FrameBuffer} (q : TxRegs) : txLeft f q ≤ f.length.toNat + 5 := by
  unfold txLeft
  split <;> omega

theorem rxLeft_le (q : RxRegs) : rxLeft q ≤ 65538 := by
  have hn := q.rxn.isLt
  unfold rxLeft
  split <;> omega

theorem txLeft_eq_zero {f : FrameBuffer} {q : TxRegs} : txLeft f q = 0 ↔ q.txs = .idle := by
  unfold txLeft
  split <;> simp [*]

theorem roundsLeft_le (s : State) : roundsLeft s ≤ max (s.txbuf.length.toNat + 5) s.xf.retry + 65539 := by
  have htx := txLeft_le (f := s.txbuf) s.tx
  have hrx := rxLeft_le s.rx
  unfold roundsLeft driveLeft
  split <;> omega

/-! ## An exchange step uses one up -/

theorem txLeft_next {f : FrameBuffer} {q : TxRegs} (h : TxReady f q) :
    txLeft f (txNext f q) = txLeft f q - 1 := by
  obtain ⟨hsize, hidx⟩ := h
  cases hq : q.txs with
  | ftype =>
    obtain ⟨hpos, -⟩ := (badSize_eq_false_iff _).1 (hsize (by simp [hq]))
    simp [txLeft, txNext, hq, hpos]
  | data =>
    have hlt := hidx hq
    have hsucc := txidx_succ_toNat hlt
    by_cases hlast : q.txidx + 1#16 = f.length
    · have hlen : f.length.toNat = q.txidx.toNat + 1 := by rw [← hlast, hsucc]
      simp [txLeft, txNext, hq, hlast, hlen]
    · have hne : (q.txidx + 1#16).toNat ≠ f.length.toNat := fun he => hlast (BitVec.eq_of_toNat_eq he)
      rw [hsucc] at hne
      have hstay : txNext f q =
          { txs := .data, txidx := q.txidx + 1#16, txsum := q.txsum + f.byte q.txidx.toNat } := by
        simp [txNext, hq, hlast]
      simp only [hstay, txLeft, hq, hsucc]
      omega
  | _ => simp [txLeft, txNext, hq]

theorem rxLeft_next {q : RxRegs} {x : XferRegs} (b : Byte) (h : RxReady q x) (hq : q.rxs ≠ .idle) :
    rxLeft (rxNext b q) < rxLeft q := by
  obtain ⟨-, -, -, hidx⟩ := h
  cases hst : q.rxs with
  | idle => exact absurd hst hq
  | lenHi => simp [rxLeft, rxNext, hst]
  | lenLo =>
    have hlt := (rxWire b q).isLt
    have hn := dataLength_toNat (rxWire b q)
    simp [rxLeft, rxNext, hst]
    omega
  | ftype => by_cases hn : 0 < q.rxn.toNat <;> simp [rxLeft, rxNext, hst, hn]
  | data =>
    have hlt := hidx hst
    by_cases hlast : q.rxidx + 1#16 = q.rxn
    · simp [rxLeft, rxNext, hst, hlast]
      omega
    · have hsucc : (q.rxidx + 1#16).toNat = q.rxidx.toNat + 1 := by bv_omega
      have hne : (q.rxidx + 1#16).toNat ≠ q.rxn.toNat := fun he => hlast (BitVec.eq_of_toNat_eq he)
      have hstay : rxNext b q =
          { q with rxs := .data, rxidx := q.rxidx + 1#16, rxsum := q.rxsum + b } := by
        simp [rxNext, hst, hlast]
      simp only [hstay, rxLeft, hst, hsucc]
      omega
  | cksum => simp [rxLeft, rxNext, hst]

theorem roundRetry_le (b : Byte) (hrx : s.rx.rxs ≠ .idle → s.xf.retry = 0) :
    roundRetry b s ≤ s.xf.retry - 1 := by
  unfold roundRetry
  split
  · split <;> omega
  · rename_i hne
    simp [hrx hne]

/-- An exchange step leaves fewer exchange steps. -/
theorem roundsLeft_round (he : Engaged .loop s) (hc : loopCond s = true) :
    roundsLeft (roundState s) < roundsLeft s := by
  have htx : txLeft (roundState s).txbuf (roundState s).tx = txLeft s.txbuf s.tx - 1 := txLeft_next he.tx
  have hretry : (roundState s).xf.retry ≤ s.xf.retry - 1 := roundRetry_le _ fun hne => (he.rx.1 hne).1
  have hrxle := rxLeft_le (roundState s).rx
  unfold roundsLeft driveLeft
  by_cases hzero : max (txLeft s.txbuf s.tx) s.xf.retry = 0
  · obtain ⟨hidle, hnone⟩ : txLeft s.txbuf s.tx = 0 ∧ s.xf.retry = 0 := by omega
    have hne : s.rx.rxs ≠ .idle := fun hi => by
      rw [(loopCond_eq_false_iff s).2 ⟨txLeft_eq_zero.1 hidle, hi, hnone⟩] at hc
      cases hc
    rw [if_pos (by omega), if_pos hzero]
    exact rxLeft_next _ he.rx hne
  · rw [if_neg hzero]
    split <;> omega

/-- As many exchange steps as are left at most end the loop (R185). -/
theorem exchangeRounds_end (n : Nat) (hs : Invariant s) (hat : atLoop s = true)
    (hn : s.world.answers = none) (hleft : roundsLeft s ≤ n) :
    ∃ t, exchangeRounds n s = .next t ∧ atLoop t = true ∧ loopCond t = false := by
  induction n generalizing s with
  | zero =>
    cases hc : loopCond s with
    | false => exact ⟨s, rfl, hat, hc⟩
    | true =>
      obtain ⟨hb, r, ho⟩ := atLoop_iff.1 hat
      have hdec := roundsLeft_round ((invariant_inside hb ho rfl).1 hs).1 hc
      omega
  | succ n ih =>
    cases hc : loopCond s with
    | false => exact ⟨s, exchangeRounds_idle _ (by simp [hc]), hat, hc⟩
    | true =>
      obtain ⟨hb, r, ho⟩ := atLoop_iff.1 hat
      have he := ((invariant_inside hb ho rfl).1 hs).1
      have hdec := roundsLeft_round he hc
      have hround := exchangeRound_eq hb ho hc hn he.tx.inside
      have hanswers : (roundState s).world.answers = none := (dropByte_answers s).trans hn
      obtain ⟨t, hrest, hend⟩ := ih (s := roundState s) (exchangeRound_invariant hs hround)
        (atLoop_iff.2 ⟨hb, r, ho⟩) hanswers (by omega)
      exact ⟨t, by rw [exchangeRounds, hround, andThen_next, hrest], hend⟩

end Sys2Proof.Machine

open Sys2Proof Sys2Proof.Machine

/-- Settles O36: `roundsLeft` is within R185's bound, and every exchange step uses one up. -/
theorem everyTransactionEnds : Obligations.EveryTransactionEnds := by
  intro s hs hat hn
  exact exchangeRounds_end _ hs hat hn (roundsLeft_le s)

end
